-- ==== Sys2Proof/Word.lean ====
section
/-!
DEFINITION. The word types of the YM2149 PSG core, and the three channels.
-/

namespace Sys2Proof

/-- A register, a data byte, a register address: 8 bits (spec/10_state.md R20, R26). -/
abbrev Byte := BitVec 8

/-- An operation word or a LOADREGS data word: 32 bits (spec/30_encoding.md R80). -/
abbrev Word := BitVec 32

/-- A 5-bit level index or edge field (spec/00_scope.md R13). -/
abbrev Level := BitVec 5

/-- A vector of one 5-bit field per channel, channel c in bits `[5c+4:5c]` (spec/00_scope.md R11). -/
abbrev Mask15 := BitVec 15

/-- The channels A, B, C, with indices 0, 1, 2 (spec/00_scope.md R6, R11). -/
inductive Channel
  | a
  | b
  | c
deriving DecidableEq, Repr

/-- The index of a channel (spec/00_scope.md R11). -/
def Channel.index : Channel → Nat
  | .a => 0
  | .b => 1
  | .c => 2

/-- One value per channel. -/
structure PerChannel (α : Type) where
  a : α
  b : α
  c : α
deriving DecidableEq, Repr, Inhabited

/-- The value of one channel. -/
def PerChannel.get {α : Type} (p : PerChannel α) : Channel → α
  | .a => p.a
  | .b => p.b
  | .c => p.c

/-- Replace the value of one channel. -/
def PerChannel.set {α : Type} (p : PerChannel α) (ch : Channel) (v : α) : PerChannel α :=
  match ch with
  | .a => { p with a := v }
  | .b => { p with b := v }
  | .c => { p with c := v }

/-- The same value in every channel. -/
def PerChannel.all {α : Type} (v : α) : PerChannel α := ⟨v, v, v⟩

end Sys2Proof
end

