-- ==== Sys2Proof/Config.lean ====
section
/-!
DEFINITION. The implementation parameters of one instance (spec/00_scope.md R6, R7) and the free
values the spec calls draws.
-/

namespace Sys2Proof

/-- The configuration an instance is built with. It does not change during the instance's life
(spec/00_scope.md R6, decision D40). Each field is an ordinary number, so every statement about the
machine ranges over all of them: `lvl` and `dcWindow` are OPEN parameters of the spec (log 1). -/
structure Config where
  /-- `MASTER_CLOCK`, in Hz. -/
  masterClock : Nat
  /-- `HOST_RATE`, host samples per second. -/
  hostRate : Nat
  /-- `LVL[0..31]`, the level table. -/
  lvl : Vector Nat 32
  /-- `DC_WINDOW`, the length of the moving average. -/
  dcWindow : Nat
  /-- `OUT_SCALE`. -/
  outScale : Nat
  /-- `FILTER_AT_RESET`. -/
  filterAtReset : Bool
deriving DecidableEq, Repr

namespace Config

/-- `INTERNAL_RATE` = floor(`MASTER_CLOCK` / 8) (spec/44_clock_divider.md R210). -/
def internalRate (c : Config) : Nat := c.masterClock / 8

/-- The ranges of spec/00_scope.md R6. A configuration outside them is not well formed (R7). -/
def wf (c : Config) : Bool :=
  decide (8 ≤ c.masterClock) && decide (1 ≤ c.hostRate) && decide (c.hostRate ≤ c.internalRate)
    && c.lvl.toList.all (fun v => decide (v ≤ 65535))
    && decide (1 ≤ c.dcWindow) && decide (1 ≤ c.outScale)

/-- The default level table of spec/43_mixer_output.md R186. -/
def defaultLvl : Vector Nat 32 :=
  #v[0, 123, 146, 174, 206, 245, 291, 346,
     411, 489, 581, 691, 821, 976, 1160, 1378,
     1638, 1947, 2314, 2750, 3269, 3885, 4617, 5487,
     6522, 7751, 9212, 10948, 13012, 15465, 18380, 21845]

/-- The defaults of spec/00_scope.md R6. -/
def default : Config where
  masterClock := 2000000
  hostRate := 44100
  lvl := defaultLvl
  dcWindow := 2048
  outScale := 65535
  filterAtReset := false

end Config

/-- The values drawn by one RESET or construction (spec/00_scope.md R6): the seed as its predecessor,
so that every value of the type is a seed in 1 .. 2^17 - 1 and none other exists, and per channel
whether the initial edge field is 0x1F (true) or 0x00 (false). -/
structure ResetDraw where
  seedPred : Fin 131071
  edgeHigh : PerChannel Bool
deriving DecidableEq, Repr, Inhabited

/-- `NOISE_SEED`, in 1 .. 2^17 - 1. -/
def ResetDraw.seed (d : ResetDraw) : BitVec 17 := BitVec.ofNat 17 (d.seedPred.val + 1)

/-- `TONE_EDGE_INIT[c]`, 0x00 or 0x1F. -/
def ResetDraw.edge (d : ResetDraw) (ch : Channel) : Level :=
  if d.edgeHigh.get ch then 0x1F else 0x00

/-- The test defaults of spec/00_scope.md R6: seed 1, edges 0x00. -/
def ResetDraw.testDefault : ResetDraw := ⟨0, PerChannel.all false⟩

/-- FREE VALUE: the n-th `NOISE_SEED` and `TONE_EDGE_INIT[0..2]` that the host does not fix
(spec/00_scope.md R6, decisions D15 and D16; log 2). -/
opaque Config.freeReset : Nat → ResetDraw

/-- FREE VALUE: the n-th `OOR_READ` that the host does not fix (spec/45_register_access.md R230,
decision D6; log 3). -/
opaque Config.freeRead : Nat → Byte

/-- FREE VALUE: whether a negative nonzero quotient `out / scale` that rounds to zero gives the zero
with the sign bit set (spec/43_mixer_output.md R194 does not say; log 14). -/
opaque Config.freeZeroSign : Int → Nat → Bool

end Sys2Proof
end

