-- ==== Sys2Proof/Syntax.lean ====
section
/-!
DEFINITION. The operations of the block: one constructor per row of spec/opcode_table.json.
-/

namespace Sys2Proof

/-- The operations of spec/30_encoding.md R82, WRREG split by address and TONERESET, SETOVR, CLROVR
split by channel as the opcode table splits them (R92). -/
inductive Instr
  /-- `nop` (spec/46_control_ops.md R277). -/
  | nop
  /-- `latch A` (spec/45_register_access.md R231). -/
  | latch (a : Byte)
  /-- `wrdata D` (R232). -/
  | wrdata (d : Byte)
  /-- `rddata` (R233). -/
  | rddata
  /-- `wrreg 0, D` (R234, R240). -/
  | wrregR0 (d : Byte)
  /-- `wrreg 1, D` (R234, R240). -/
  | wrregR1 (d : Byte)
  /-- `wrreg 2, D` (R234, R240). -/
  | wrregR2 (d : Byte)
  /-- `wrreg 3, D` (R234, R240). -/
  | wrregR3 (d : Byte)
  /-- `wrreg 4, D` (R234, R240). -/
  | wrregR4 (d : Byte)
  /-- `wrreg 5, D` (R234, R240). -/
  | wrregR5 (d : Byte)
  /-- `wrreg 6, D` (R234, R241). -/
  | wrregR6 (d : Byte)
  /-- `wrreg 7, D` (R234, R242). -/
  | wrregR7 (d : Byte)
  /-- `wrreg 8, D` (R234, R243). -/
  | wrregR8 (d : Byte)
  /-- `wrreg 9, D` (R234, R243). -/
  | wrregR9 (d : Byte)
  /-- `wrreg 10, D` (R234, R243). -/
  | wrregR10 (d : Byte)
  /-- `wrreg 11, D` (R234, R244). -/
  | wrregR11 (d : Byte)
  /-- `wrreg 12, D` (R234, R244). -/
  | wrregR12 (d : Byte)
  /-- `wrreg 13, D` (R234, R245). -/
  | wrregR13 (d : Byte)
  /-- `wrreg 14, D` (R234, R246). -/
  | wrregR14 (d : Byte)
  /-- `wrreg 15, D` (R234, R246). -/
  | wrregR15 (d : Byte)
  /-- `wrreg A, D`, A[7] = 1: addresses 128..255 (R234, R248). -/
  | wrregOor128 (a d : Byte)
  /-- `wrreg A, D`, A[7:6] = 01: addresses 64..127 (R234, R248). -/
  | wrregOor64 (a d : Byte)
  /-- `wrreg A, D`, A[7:5] = 001: addresses 32..63 (R234, R248). -/
  | wrregOor32 (a d : Byte)
  /-- `wrreg A, D`, A[7:4] = 0001: addresses 16..31 (R234, R248). -/
  | wrregOor16 (a d : Byte)
  /-- `rdreg A` (R235). -/
  | rdreg (a : Byte)
  /-- `clock` (spec/44_clock_divider.md R214). -/
  | clock
  /-- `getsample` (R216). -/
  | getsample
  /-- `loadregs` with its four data words, first word first (spec/45_register_access.md R250,
  spec/30_encoding.md R83). -/
  | loadregs (v0 v1 v2 v3 : Word)
  /-- `dumpregs` (R251). -/
  | dumpregs
  /-- `setfilter B`, B = 1 as true (spec/46_control_ops.md R270). -/
  | setfilter (on : Bool)
  /-- `tonereset a` (R272). -/
  | toneresetA
  /-- `tonereset b` (R272). -/
  | toneresetB
  /-- `tonereset c` (R272). -/
  | toneresetC
  /-- `envtrig` (R273). -/
  | envtrig
  /-- `setovr a, L` (R274). -/
  | setovrA (l : Level)
  /-- `setovr b, L` (R274). -/
  | setovrB (l : Level)
  /-- `setovr c, L` (R274). -/
  | setovrC (l : Level)
  /-- `clrovr a` (R275). -/
  | clrovrA
  /-- `clrovr b` (R275). -/
  | clrovrB
  /-- `clrovr c` (R275). -/
  | clrovrC
  /-- `reset` (R276). -/
  | reset
deriving DecidableEq, Repr

end Sys2Proof
end

