-- ==== Sys2Proof/WellFormed.lean ====
section
/-!
DEFINITION. Which terms of `Instr` stand for an operation of the opcode table. Every operand but the
address of the four out-of-range WRREG rows has exactly the values its field admits, by its type.
-/

namespace Sys2Proof

/-- The address range of each out-of-range WRREG row (spec/30_encoding.md R92). -/
def Instr.wf : Instr → Bool
  | .wrregOor128 a _ => decide (128 ≤ a.toNat)
  | .wrregOor64 a _ => decide (64 ≤ a.toNat) && decide (a.toNat < 128)
  | .wrregOor32 a _ => decide (32 ≤ a.toNat) && decide (a.toNat < 64)
  | .wrregOor16 a _ => decide (16 ≤ a.toNat) && decide (a.toNat < 32)
  | .nop | .latch _ | .wrdata _ | .rddata
  | .wrregR0 _ | .wrregR1 _ | .wrregR2 _ | .wrregR3 _ | .wrregR4 _ | .wrregR5 _ | .wrregR6 _
  | .wrregR7 _ | .wrregR8 _ | .wrregR9 _ | .wrregR10 _ | .wrregR11 _ | .wrregR12 _ | .wrregR13 _
  | .wrregR14 _ | .wrregR15 _
  | .rdreg _ | .clock | .getsample | .loadregs _ _ _ _ | .dumpregs | .setfilter _
  | .toneresetA | .toneresetB | .toneresetC | .envtrig
  | .setovrA _ | .setovrB _ | .setovrC _ | .clrovrA | .clrovrB | .clrovrC | .reset => true

end Sys2Proof
end

