-- ==== Sys2Proof/Decode.lean ====
section
/-!
DEFINITION. The operation words of spec/30_encoding.md: the decoder, total on every sequence of words
and of bytes and rejecting by name, the encoder, and the opcode table as masks and patterns.
-/

namespace Sys2Proof

/-! ## The fields of an operation word (R81) -/

/-- OP, W[31:24]. -/
def opField (w : Word) : Byte := w.extractLsb' 24 8

/-- A, W[23:16]. -/
def aField (w : Word) : Byte := w.extractLsb' 16 8

/-- D, W[15:8]. -/
def dField (w : Word) : Byte := w.extractLsb' 8 8

/-- Z, W[7:0]. -/
def zField (w : Word) : Byte := w.extractLsb' 0 8

/-! ## Why a sequence of words is rejected -/

/-- The six items of R87 that make an operation word illegal. -/
inductive Illegal
  /-- Item 1: OP is one of 0x10 .. 0xFF. -/
  | reservedOp
  /-- Item 2: Z is not zero. -/
  | reservedByte
  /-- Item 3: a field that R82 marks "0" is not zero. -/
  | fieldNotZero
  /-- Item 4: a channel number of 3 or more. -/
  | badChannel
  /-- Item 5: SETFILTER with D of 2 or more. -/
  | badFilter
  /-- Item 6: SETOVR with D[7:5] not zero. -/
  | badLevel
deriving DecidableEq, Repr

/-- Why the decoder gives no operation. -/
inductive Reject
  /-- The first word is illegal (R87, R95). -/
  | illegal (r : Illegal)
  /-- The sequence ends inside the data words of a LOADREGS (R86). -/
  | truncatedLoadregs
  /-- There is no word at all. -/
  | noWord
  /-- The bytes end inside a word (log 21). -/
  | partialWord
deriving DecidableEq, Repr

/-- What decoding a sequence of words gives: an operation and the words after it, or a rejection. -/
inductive Decoded
  | instr (i : Instr) (rest : List Word)
  | reject (r : Reject)
deriving DecidableEq, Repr

/-! ## The decoder -/

/-- The WRREG row of an address (R92). -/
def decodeWrreg (a d : Byte) : Instr :=
  match a.toNat with
  | 0 => .wrregR0 d
  | 1 => .wrregR1 d
  | 2 => .wrregR2 d
  | 3 => .wrregR3 d
  | 4 => .wrregR4 d
  | 5 => .wrregR5 d
  | 6 => .wrregR6 d
  | 7 => .wrregR7 d
  | 8 => .wrregR8 d
  | 9 => .wrregR9 d
  | 10 => .wrregR10 d
  | 11 => .wrregR11 d
  | 12 => .wrregR12 d
  | 13 => .wrregR13 d
  | 14 => .wrregR14 d
  | 15 => .wrregR15 d
  | _ =>
    if a.getLsbD 7 then .wrregOor128 a d
    else if a.getLsbD 6 then .wrregOor64 a d
    else if a.getLsbD 5 then .wrregOor32 a d
    else .wrregOor16 a d

/-- An operation whose A and D must both be 0 (R82, R87 item 3). -/
def decodeBare (a d : Byte) (i : Instr) (rest : List Word) : Decoded :=
  if a = 0 ∧ d = 0 then .instr i rest else .reject (.illegal .fieldNotZero)

/-- An operation whose A is a channel number (R85, R87 item 4). -/
def decodeChannel (a : Byte) (onA onB onC : Instr) (rest : List Word) : Decoded :=
  match a.toNat with
  | 0 => .instr onA rest
  | 1 => .instr onB rest
  | 2 => .instr onC rest
  | _ => .reject (.illegal .badChannel)

/-- The four data words of LOADREGS (R83, R86). -/
def decodeFrame : List Word → Decoded
  | v0 :: v1 :: v2 :: v3 :: rest => .instr (.loadregs v0 v1 v2 v3) rest
  | _ => .reject .truncatedLoadregs

/-- The operation map (R82) on the fields of a word whose Z is 0. -/
def decodeOp (op a d : Byte) (rest : List Word) : Decoded :=
  match op.toNat with
  | 0x00 => decodeBare a d .nop rest
  | 0x01 => if d = 0 then .instr (.latch a) rest else .reject (.illegal .fieldNotZero)
  | 0x02 => if a = 0 then .instr (.wrdata d) rest else .reject (.illegal .fieldNotZero)
  | 0x03 => decodeBare a d .rddata rest
  | 0x04 => .instr (decodeWrreg a d) rest
  | 0x05 => if d = 0 then .instr (.rdreg a) rest else .reject (.illegal .fieldNotZero)
  | 0x06 => decodeBare a d .clock rest
  | 0x07 => decodeBare a d .getsample rest
  | 0x08 =>
    if a = 0 ∧ d = 0 then decodeFrame rest else .reject (.illegal .fieldNotZero)
  | 0x09 => decodeBare a d .dumpregs rest
  | 0x0A =>
    if a = 0 then
      match d.toNat with
      | 0 => .instr (.setfilter false) rest
      | 1 => .instr (.setfilter true) rest
      | _ => .reject (.illegal .badFilter)
    else .reject (.illegal .fieldNotZero)
  | 0x0B =>
    if d = 0 then decodeChannel a .toneresetA .toneresetB .toneresetC rest
    else .reject (.illegal .fieldNotZero)
  | 0x0C => decodeBare a d .envtrig rest
  | 0x0D =>
    if d.extractLsb' 5 3 = 0 then
      decodeChannel a (.setovrA (d.extractLsb' 0 5)) (.setovrB (d.extractLsb' 0 5))
        (.setovrC (d.extractLsb' 0 5)) rest
    else .reject (.illegal .badLevel)
  | 0x0E =>
    if d = 0 then decodeChannel a .clrovrA .clrovrB .clrovrC rest
    else .reject (.illegal .fieldNotZero)
  | 0x0F => decodeBare a d .reset rest
  | _ => .reject (.illegal .reservedOp)

/-- Decode the operation at the front of a sequence of words (R86, R87). -/
def decode : List Word → Decoded
  | [] => .reject .noWord
  | w :: rest =>
    if zField w = 0 then decodeOp (opField w) (aField w) (dField w) rest
    else .reject (.illegal .reservedByte)

/-! ## The encoder, from the same tables -/

/-- The operation word with the given OP, A and D, and Z = 0 (R81). -/
def opWord (op a d : Byte) : Word := op ++ a ++ d ++ 0x00#8

/-- The D byte of SETOVR: D[7:5] = 0, D[4:0] the level (R85). -/
def levelByte (l : Level) : Byte := 0#3 ++ l

/-- The words of an operation (R82, R83). -/
def encode : Instr → List Word
  | .nop => [opWord 0x00 0 0]
  | .latch a => [opWord 0x01 a 0]
  | .wrdata d => [opWord 0x02 0 d]
  | .rddata => [opWord 0x03 0 0]
  | .wrregR0 d => [opWord 0x04 0x00 d]
  | .wrregR1 d => [opWord 0x04 0x01 d]
  | .wrregR2 d => [opWord 0x04 0x02 d]
  | .wrregR3 d => [opWord 0x04 0x03 d]
  | .wrregR4 d => [opWord 0x04 0x04 d]
  | .wrregR5 d => [opWord 0x04 0x05 d]
  | .wrregR6 d => [opWord 0x04 0x06 d]
  | .wrregR7 d => [opWord 0x04 0x07 d]
  | .wrregR8 d => [opWord 0x04 0x08 d]
  | .wrregR9 d => [opWord 0x04 0x09 d]
  | .wrregR10 d => [opWord 0x04 0x0A d]
  | .wrregR11 d => [opWord 0x04 0x0B d]
  | .wrregR12 d => [opWord 0x04 0x0C d]
  | .wrregR13 d => [opWord 0x04 0x0D d]
  | .wrregR14 d => [opWord 0x04 0x0E d]
  | .wrregR15 d => [opWord 0x04 0x0F d]
  | .wrregOor128 a d => [opWord 0x04 a d]
  | .wrregOor64 a d => [opWord 0x04 a d]
  | .wrregOor32 a d => [opWord 0x04 a d]
  | .wrregOor16 a d => [opWord 0x04 a d]
  | .rdreg a => [opWord 0x05 a 0]
  | .clock => [opWord 0x06 0 0]
  | .getsample => [opWord 0x07 0 0]
  | .loadregs v0 v1 v2 v3 => [opWord 0x08 0 0, v0, v1, v2, v3]
  | .dumpregs => [opWord 0x09 0 0]
  | .setfilter on => [opWord 0x0A 0 (if on then 1 else 0)]
  | .toneresetA => [opWord 0x0B 0 0]
  | .toneresetB => [opWord 0x0B 1 0]
  | .toneresetC => [opWord 0x0B 2 0]
  | .envtrig => [opWord 0x0C 0 0]
  | .setovrA l => [opWord 0x0D 0 (levelByte l)]
  | .setovrB l => [opWord 0x0D 1 (levelByte l)]
  | .setovrC l => [opWord 0x0D 2 (levelByte l)]
  | .clrovrA => [opWord 0x0E 0 0]
  | .clrovrB => [opWord 0x0E 1 0]
  | .clrovrC => [opWord 0x0E 2 0]
  | .reset => [opWord 0x0F 0 0]

/-! ## Which words are legal, as R87 lists the illegal ones -/

/-- The operations whose A must be 0 (R82, column A). -/
def zeroA : List Nat := [0x00, 0x02, 0x03, 0x06, 0x07, 0x08, 0x09, 0x0A, 0x0C, 0x0F]

/-- The operations whose D must be 0 (R82, column D). -/
def zeroD : List Nat :=
  [0x00, 0x01, 0x03, 0x05, 0x06, 0x07, 0x08, 0x09, 0x0B, 0x0C, 0x0E, 0x0F]

/-- A word is illegal when one of the six items of R87 holds. -/
def illegalWord (w : Word) : Bool :=
  decide (0x10 ≤ (opField w).toNat)
  || decide (zField w ≠ 0)
  || (decide ((opField w).toNat ∈ zeroA) && decide (aField w ≠ 0))
  || (decide ((opField w).toNat ∈ zeroD) && decide (dField w ≠ 0))
  || (decide ((opField w).toNat ∈ [0x0B, 0x0D, 0x0E]) && decide (3 ≤ (aField w).toNat))
  || (decide (opField w = 0x0A) && decide (2 ≤ (dField w).toNat))
  || (decide (opField w = 0x0D) && decide ((dField w).extractLsb' 5 3 ≠ 0))

/-! ## The opcode table as masks and patterns -/

/-- A row of spec/opcode_table.json: a word belongs to it when its masked bits are the pattern. -/
structure TableRow where
  mask : Word
  pattern : Word
deriving DecidableEq, Repr

/-- The word belongs to the row. -/
def TableRow.has (r : TableRow) (w : Word) : Bool := decide (w &&& r.mask = r.pattern)

/-- The 41 rows of spec/opcode_table.json, in the table's order. -/
def opcodeTable : List TableRow :=
  [⟨0xFFFFFFFF, 0x00000000⟩, ⟨0xFF00FFFF, 0x01000000⟩, ⟨0xFFFF00FF, 0x02000000⟩, ⟨0xFFFFFFFF, 0x03000000⟩, ⟨0xFFFF00FF, 0x04000000⟩, ⟨0xFFFF00FF, 0x04010000⟩, ⟨0xFFFF00FF, 0x04020000⟩, ⟨0xFFFF00FF, 0x04030000⟩]
  ++ [⟨0xFFFF00FF, 0x04040000⟩, ⟨0xFFFF00FF, 0x04050000⟩, ⟨0xFFFF00FF, 0x04060000⟩, ⟨0xFFFF00FF, 0x04070000⟩, ⟨0xFFFF00FF, 0x04080000⟩, ⟨0xFFFF00FF, 0x04090000⟩, ⟨0xFFFF00FF, 0x040A0000⟩, ⟨0xFFFF00FF, 0x040B0000⟩]
  ++ [⟨0xFFFF00FF, 0x040C0000⟩, ⟨0xFFFF00FF, 0x040D0000⟩, ⟨0xFFFF00FF, 0x040E0000⟩, ⟨0xFFFF00FF, 0x040F0000⟩, ⟨0xFF8000FF, 0x04800000⟩, ⟨0xFFC000FF, 0x04400000⟩, ⟨0xFFE000FF, 0x04200000⟩, ⟨0xFFF000FF, 0x04100000⟩]
  ++ [⟨0xFF00FFFF, 0x05000000⟩, ⟨0xFFFFFFFF, 0x06000000⟩, ⟨0xFFFFFFFF, 0x07000000⟩, ⟨0xFFFFFFFF, 0x08000000⟩, ⟨0xFFFFFFFF, 0x09000000⟩, ⟨0xFFFFFEFF, 0x0A000000⟩, ⟨0xFFFFFFFF, 0x0B000000⟩, ⟨0xFFFFFFFF, 0x0B010000⟩]
  ++ [⟨0xFFFFFFFF, 0x0B020000⟩, ⟨0xFFFFFFFF, 0x0C000000⟩, ⟨0xFFFFE0FF, 0x0D000000⟩, ⟨0xFFFFE0FF, 0x0D010000⟩, ⟨0xFFFFE0FF, 0x0D020000⟩, ⟨0xFFFFFFFF, 0x0E000000⟩, ⟨0xFFFFFFFF, 0x0E010000⟩, ⟨0xFFFFFFFF, 0x0E020000⟩]
  ++ [⟨0xFFFFFFFF, 0x0F000000⟩]

/-- The row of an operation. -/
def tableRow : Instr → TableRow
  | .nop => ⟨0xFFFFFFFF, 0x00000000⟩
  | .latch _ => ⟨0xFF00FFFF, 0x01000000⟩
  | .wrdata _ => ⟨0xFFFF00FF, 0x02000000⟩
  | .rddata => ⟨0xFFFFFFFF, 0x03000000⟩
  | .wrregR0 _ => ⟨0xFFFF00FF, 0x04000000⟩
  | .wrregR1 _ => ⟨0xFFFF00FF, 0x04010000⟩
  | .wrregR2 _ => ⟨0xFFFF00FF, 0x04020000⟩
  | .wrregR3 _ => ⟨0xFFFF00FF, 0x04030000⟩
  | .wrregR4 _ => ⟨0xFFFF00FF, 0x04040000⟩
  | .wrregR5 _ => ⟨0xFFFF00FF, 0x04050000⟩
  | .wrregR6 _ => ⟨0xFFFF00FF, 0x04060000⟩
  | .wrregR7 _ => ⟨0xFFFF00FF, 0x04070000⟩
  | .wrregR8 _ => ⟨0xFFFF00FF, 0x04080000⟩
  | .wrregR9 _ => ⟨0xFFFF00FF, 0x04090000⟩
  | .wrregR10 _ => ⟨0xFFFF00FF, 0x040A0000⟩
  | .wrregR11 _ => ⟨0xFFFF00FF, 0x040B0000⟩
  | .wrregR12 _ => ⟨0xFFFF00FF, 0x040C0000⟩
  | .wrregR13 _ => ⟨0xFFFF00FF, 0x040D0000⟩
  | .wrregR14 _ => ⟨0xFFFF00FF, 0x040E0000⟩
  | .wrregR15 _ => ⟨0xFFFF00FF, 0x040F0000⟩
  | .wrregOor128 _ _ => ⟨0xFF8000FF, 0x04800000⟩
  | .wrregOor64 _ _ => ⟨0xFFC000FF, 0x04400000⟩
  | .wrregOor32 _ _ => ⟨0xFFE000FF, 0x04200000⟩
  | .wrregOor16 _ _ => ⟨0xFFF000FF, 0x04100000⟩
  | .rdreg _ => ⟨0xFF00FFFF, 0x05000000⟩
  | .clock => ⟨0xFFFFFFFF, 0x06000000⟩
  | .getsample => ⟨0xFFFFFFFF, 0x07000000⟩
  | .loadregs _ _ _ _ => ⟨0xFFFFFFFF, 0x08000000⟩
  | .dumpregs => ⟨0xFFFFFFFF, 0x09000000⟩
  | .setfilter _ => ⟨0xFFFFFEFF, 0x0A000000⟩
  | .toneresetA => ⟨0xFFFFFFFF, 0x0B000000⟩
  | .toneresetB => ⟨0xFFFFFFFF, 0x0B010000⟩
  | .toneresetC => ⟨0xFFFFFFFF, 0x0B020000⟩
  | .envtrig => ⟨0xFFFFFFFF, 0x0C000000⟩
  | .setovrA _ => ⟨0xFFFFE0FF, 0x0D000000⟩
  | .setovrB _ => ⟨0xFFFFE0FF, 0x0D010000⟩
  | .setovrC _ => ⟨0xFFFFE0FF, 0x0D020000⟩
  | .clrovrA => ⟨0xFFFFFFFF, 0x0E000000⟩
  | .clrovrB => ⟨0xFFFFFFFF, 0x0E010000⟩
  | .clrovrC => ⟨0xFFFFFFFF, 0x0E020000⟩
  | .reset => ⟨0xFFFFFFFF, 0x0F000000⟩

/-! ## Words as bytes (R84) -/

/-- The four bytes of a word, W[7:0] first. -/
def bytesOfWord (w : Word) : List Byte :=
  [w.extractLsb' 0 8, w.extractLsb' 8 8, w.extractLsb' 16 8, w.extractLsb' 24 8]

/-- The bytes of a sequence of words. -/
def bytesOfWords (ws : List Word) : List Byte := ws.flatMap bytesOfWord

/-- The words of a sequence of bytes, or none where the bytes end inside a word. -/
def wordsOfBytes : List Byte → Option (List Word)
  | [] => some []
  | b0 :: b1 :: b2 :: b3 :: rest =>
    match wordsOfBytes rest with
    | some ws => some ((b3 ++ b2 ++ b1 ++ b0) :: ws)
    | none => none
  | _ => none

/-- Decode the operation at the front of a sequence of bytes. -/
def decodeBytes (bs : List Byte) : Decoded :=
  match wordsOfBytes bs with
  | some ws => decode ws
  | none => .reject .partialWord

/-! ## The opcode table's numbering of an operation's bits -/

/-- The 20 bytes of an operation whose bits are `w`, numbered from the least significant bit of the
first word, the first word at the lowest address and each word little-endian (R84): bits from
`nbits` on are 0, and 20 bytes hold the longest operation (R80). -/
def tableBytes (nbits w : Nat) : List Byte :=
  (List.range 20).map fun k => BitVec.ofNat 8 ((w % 2 ^ nbits) >>> (8 * k))

/-- The operation the decoder reads from those bytes. -/
def decodeTableWord (nbits w : Nat) : Option Instr :=
  match decodeBytes (tableBytes nbits w) with
  | .instr i _ => some i
  | .reject _ => none

/-- How many words the operation at the front of a sequence takes (R86): five where the first word is
the LOADREGS word, else one. -/
def opLength : List Word → Nat
  | [] => 0
  | w :: _ => if w = 0x08000000 then 5 else 1

end Sys2Proof
end

