-- ==== Sys2Proof/Machine/State.lean ====
section
/-!
DEFINITION. The state of one PSG instance (spec/10_state.md), the reasons a step can stop, and the
state right after reset.
-/

namespace Sys2Proof.Machine

/-- What an operation hands back to the host (spec/30_encoding.md R82, column "Result"). -/
inductive Result
  /-- A byte, from RDDATA or RDREG. -/
  | byte (v : Byte)
  /-- 16 bytes, from DUMPREGS, byte i being `R[i]`. -/
  | frame (v : Vector Byte 16)
  /-- The bits of a binary32 value, from GETSAMPLE. -/
  | sample (v : BitVec 32)
deriving DecidableEq, Repr

/-- The state of one instance. The first group is the spec's own state under its own names; then the
instance's configuration; then the host port, the model's own fields for what crosses the host
boundary (log 2, 3, 4, 5, 6). -/
structure State where
  /-- `R[0..15]` (spec/10_state.md R20). -/
  regs : Vector Byte 16
  /-- `LATCH` (R26). -/
  latch : Byte
  /-- `TC[c]`, the tone counters (R28). -/
  tc : PerChannel Nat
  /-- `TE`, the tone-edge vector (R28). -/
  te : Mask15
  /-- `TR[c]`, the deferred-reset flags (R28). -/
  tr : PerChannel Bool
  /-- `NC`, the noise counter (R29). -/
  nc : Nat
  /-- `LFSR`, the noise shift register (R29). -/
  lfsr : BitVec 17
  /-- `NH`, the half-rate parity bit, 1 as true (R29). -/
  nh : Bool
  /-- `NM`, the noise output mask (R29). -/
  nm : Mask15
  /-- `EC`, the envelope counter (R30). -/
  ec : Nat
  /-- `EPOS`, the envelope position (R30). -/
  epos : Int
  /-- `ACC`, the rate accumulator (R31). -/
  acc : Nat
  /-- `GATE`, the gate accumulator (R32). -/
  gate : Mask15
  /-- `DCH`, the ring of the last `DC_WINDOW` mixed sums (R33). -/
  dch : List Nat
  /-- `DCI`, the ring index of the oldest entry (R33). -/
  dci : Nat
  /-- `DCS`, the sum of the ring, an exact integer (R33, R9; log 16). -/
  dcs : Int
  /-- `FY1`, the last DC-removed value (R34). -/
  fy1 : Int
  /-- `FY2`, the one before it (R34). -/
  fy2 : Int
  /-- `FILT`, whether the FIR is applied (R34). -/
  filt : Bool
  /-- `OVR[c]`, the level overrides (R35). -/
  ovr : PerChannel (Option Level)
  /-- `SAMPLE`, the bits of a binary32 value (R36). -/
  sample : BitVec 32
  /-- The configuration the instance was built with (spec/00_scope.md R6; log 1). -/
  cfg : Config
  /-- Host port: the words issued and not taken yet, oldest first (log 5). -/
  pending : List Word
  /-- Host port: the results handed back, in issue order (spec/70_reset_and_hazards.md R337; log 6). -/
  results : List Result
  /-- Host port: the RESET draws the host has fixed and not used yet (R336; log 2). -/
  fixedResets : List ResetDraw
  /-- Host port: the `OOR_READ` draws the host has fixed and not used yet (R336; log 3). -/
  fixedReads : List Byte
  /-- How many free draws have been taken (log 4). -/
  drawn : Nat
deriving DecidableEq, Repr

/-- A fault. The block raises none (spec/60_exceptions.md R300), so the type has no constructor: it is
closed, and nothing raises it (log 22). -/
inductive Fault
deriving DecidableEq, Repr

/-- Why a step gives no meaning. A refusal ends the run, which is the spec's mark "refused"
(spec/30_encoding.md R95; log 9). -/
inductive Refusal
  /-- Raised by an arm of `exec` whose instruction has no meaning yet. Safe. No arm does. -/
  | notModelled (mnemonic : String)
  /-- Raised by `step` when the words at the front of the host's queue are no operation: an illegal
  operation word, with the item of R87 that the decoder met first, or a truncated LOADREGS
  (spec/30_encoding.md R86, R87, R95; log 8). The queue holds whole words and an empty queue is no
  rejection, so the other two reasons of `Reject` do not come up in `step`. Safe: the spec gives such
  a run no meaning. -/
  | rejected (r : Reject)
  /-- Raised by `construct`, and by `step` in a state no construction gives, when the configuration is
  not well formed (spec/00_scope.md R7, spec/46_control_ops.md R278). Safe: no such instance exists
  (log 12). -/
  | illFormedConfig
deriving DecidableEq, Repr

/-- The state of spec/10_state.md R38 for a configuration and a draw, with an empty host port. -/
def State.initial (cfg : Config) (d : ResetDraw) : State where
  regs := Vector.replicate 16 0x00
  latch := 0
  tc := PerChannel.all 0
  te := d.edge .c ++ d.edge .b ++ d.edge .a
  tr := PerChannel.all false
  nc := 0
  lfsr := d.seed
  nh := false
  nm := 0x0000
  ec := 0
  epos := -64
  acc := 0
  gate := 0
  dch := List.replicate cfg.dcWindow 0
  dci := 0
  dcs := 0
  fy1 := 0
  fy2 := 0
  filt := cfg.filterAtReset
  ovr := PerChannel.all none
  sample := 0x00000000
  cfg := cfg
  pending := []
  results := []
  fixedResets := []
  fixedReads := []
  drawn := 0

/-- The machine right after reset: an instance of the default configuration (spec/00_scope.md R6) in
the state of spec/10_state.md R38, its seed and edges the first free draw (log 2, 4). -/
def State.reset : State :=
  { State.initial Config.default (Config.freeReset 0) with drawn := 1 }

end Sys2Proof.Machine
end

