-- ==== Sys2Proof/Machine/Operands.lean ====
section
/-!
DEFINITION. What the operations read: the register map and its storage masks, the values derived from
the register file, and the bytes of a LOADREGS frame.
-/

namespace Sys2Proof.Machine

/-! ## The register file (spec/10_state.md R20, R21) -/

/-- `MASK[i]`, the storage mask of each register (R21). -/
def regMask : Vector Byte 16 :=
  #v[0xFF, 0x0F, 0xFF, 0x0F, 0xFF, 0x0F, 0x1F, 0xFF,
     0x1F, 0x1F, 0x1F, 0xFF, 0xFF, 0x0F, 0xFF, 0xFF]

/-- `R[i]`. -/
def State.reg (s : State) (i : Fin 16) : Byte := s.regs[i]

/-- `R[2c]`, the fine half of a channel's tone period (R21). -/
def fineIndex : Channel → Fin 16
  | .a => 0
  | .b => 2
  | .c => 4

/-- `R[2c+1]`, the coarse half of a channel's tone period (R21). -/
def coarseIndex : Channel → Fin 16
  | .a => 1
  | .b => 3
  | .c => 5

/-- `R[8+c]`, a channel's amplitude register (R21). -/
def ampIndex : Channel → Fin 16
  | .a => 8
  | .b => 9
  | .c => 10

/-! ## Derived configuration (spec/10_state.md R27): computed from the register file at every use -/

/-- `TP[c]` = `{R[2c+1][3:0], R[2c][7:0]}`, the 12-bit tone period. -/
def State.tp (s : State) (ch : Channel) : BitVec 12 :=
  (s.reg (coarseIndex ch)).extractLsb' 0 4 ++ s.reg (fineIndex ch)

/-- `NP` = `R[6][4:0]`, the noise period. -/
def State.np (s : State) : BitVec 5 := (s.reg 6).extractLsb' 0 5

/-- `EP` = `{R[12], R[11]}`, the envelope period. -/
def State.ep (s : State) : BitVec 16 := s.reg 12 ++ s.reg 11

/-- `PAT(s)`, the pattern of a shape code (spec/42_envelope.md R153). -/
def shapePattern (code : BitVec 4) : Nat :=
  if code.toNat < 4 then 0
  else if code.toNat < 8 then 1
  else code.toNat - 6

/-- The shape code `R[13][3:0]` (spec/10_state.md R24). -/
def State.shape (s : State) : BitVec 4 := (s.reg 13).extractLsb' 0 4

/-- `EOFF` = 128 × `PAT(R[13][3:0])`, the envelope table offset. -/
def State.eoff (s : State) : Nat := 128 * shapePattern s.shape

/-! ## Amplitude registers (spec/10_state.md R23) -/

/-- The mode bit M, `R[8+c][4]`. -/
def State.ampMode (s : State) (ch : Channel) : Bool := (s.reg (ampIndex ch)).getLsbD 4

/-- The fixed level L, `R[8+c][3:0]`. -/
def State.ampFixed (s : State) (ch : Channel) : BitVec 4 := (s.reg (ampIndex ch)).extractLsb' 0 4

/-! ## LOADREGS data words (spec/30_encoding.md R83) -/

/-- Byte `j` of a data word, `V[8j+7:8j]`. -/
def wordByte (v : Word) (j : Nat) : Byte := v.extractLsb' (8 * j) 8

/-- The frame `F[0..15]` of four data words: `F[4k + j]` is byte `j` of word `k`. -/
def frameOfWords (v0 v1 v2 v3 : Word) : Vector Byte 16 :=
  #v[wordByte v0 0, wordByte v0 1, wordByte v0 2, wordByte v0 3,
     wordByte v1 0, wordByte v1 1, wordByte v1 2, wordByte v1 3,
     wordByte v2 0, wordByte v2 1, wordByte v2 2, wordByte v2 3,
     wordByte v3 0, wordByte v3 1, wordByte v3 2, wordByte v3 3]

end Sys2Proof.Machine
end

