-- ==== Sys2Proof/Machine/Flags.lean ====
section
/-!
DEFINITION. The block has no status flags and no condition codes (spec/10_state.md R37). Its one-bit
conditions are the gate bits, and this file holds every computation over them: the per-channel fields
of a 15-bit mask, the enable masks of the mixer register, and the per-tick gate mask.
-/

namespace Sys2Proof.Machine

/-- `FIELD(c)` = `0x1F << 5c` (spec/00_scope.md R11). -/
def fieldMask : Channel → Mask15
  | .a => 0x001F
  | .b => 0x03E0
  | .c => 0x7C00

/-- `V[5c+4:5c]`, channel c's field of a 15-bit mask (spec/00_scope.md R11). -/
def fieldOf (v : Mask15) : Channel → Level
  | .a => v.extractLsb' 0 5
  | .b => v.extractLsb' 5 5
  | .c => v.extractLsb' 10 5

/-- `FIELD(c)` where the bit is set, else nothing. -/
def fieldIf (bit : Bool) (ch : Channel) : Mask15 := if bit then fieldMask ch else 0

/-- The tone-off bit of a channel, `R[7][c]` (spec/10_state.md R22). -/
def State.toneOff (s : State) : Channel → Bool
  | .a => (s.reg 7).getLsbD 0
  | .b => (s.reg 7).getLsbD 1
  | .c => (s.reg 7).getLsbD 2

/-- The noise-off bit of a channel, `R[7][3+c]` (spec/10_state.md R22). -/
def State.noiseOff (s : State) : Channel → Bool
  | .a => (s.reg 7).getLsbD 3
  | .b => (s.reg 7).getLsbD 4
  | .c => (s.reg 7).getLsbD 5

/-- `TEM`, a set bit disabling the tone of its channel (spec/10_state.md R27). -/
def State.tem (s : State) : Mask15 :=
  fieldIf (s.toneOff .a) .a ||| fieldIf (s.toneOff .b) .b ||| fieldIf (s.toneOff .c) .c

/-- `NEM`, a set bit disabling the noise of its channel (spec/10_state.md R27). -/
def State.nem (s : State) : Mask15 :=
  fieldIf (s.noiseOff .a) .a ||| fieldIf (s.noiseOff .b) .b ||| fieldIf (s.noiseOff .c) .c

/-- The per-tick gate mask `g = (TE OR TEM) AND (NM OR NEM)` (spec/43_mixer_output.md R180). -/
def State.gateMask (s : State) : Mask15 := (s.te ||| s.tem) &&& (s.nm ||| s.nem)

end Sys2Proof.Machine
end

