-- ==== Sys2Proof/Machine/Ops.lean ====
section
/-!
DEFINITION. The named operations over the state: the host port (issuing words, handing results back,
drawing free values), reading and writing a register, and the envelope restart. The block takes no
exception (spec/60_exceptions.md R300, R304, R305), so there is no exception entry and no return here.
-/

namespace Sys2Proof.Machine

/-! ## The host port (spec/70_reset_and_hazards.md R336, R337) -/

/-- The host issues operation words; the block takes them in this order (log 5). -/
def hostIssue (ws : List Word) (s : State) : State := { s with pending := s.pending ++ ws }

/-- The host fixes the draws of a later RESET (log 2). -/
def hostFixReset (d : ResetDraw) (s : State) : State :=
  { s with fixedResets := s.fixedResets ++ [d] }

/-- The host fixes the byte of a later out-of-range read (log 3). -/
def hostFixRead (v : Byte) (s : State) : State := { s with fixedReads := s.fixedReads ++ [v] }

/-- Hand a result back to the host (log 6). -/
def handBack (r : Result) (s : State) : State := { s with results := s.results ++ [r] }

/-! ## Draws (spec/00_scope.md R6, R10) -/

/-- `draw OOR_READ`: the host's next fixed byte, else a free value (log 3). -/
def drawnRead (s : State) : Byte :=
  match s.fixedReads with
  | [] => Config.freeRead s.drawn
  | v :: _ => v

/-- The draw of `drawnRead` is used up. -/
def useRead (s : State) : State :=
  match s.fixedReads with
  | [] => { s with drawn := s.drawn + 1 }
  | _ :: vs => { s with fixedReads := vs }

/-- `draw NOISE_SEED` and `TONE_EDGE_INIT[0..2]`: the host's next fixed draw, else a free value
(log 2). -/
def drawnReset (s : State) : ResetDraw :=
  match s.fixedResets with
  | [] => Config.freeReset s.drawn
  | d :: _ => d

/-- The draw of `drawnReset` is used up. -/
def useReset (s : State) : State :=
  match s.fixedResets with
  | [] => { s with drawn := s.drawn + 1 }
  | _ :: ds => { s with fixedResets := ds }

/-! ## The envelope restart -/

/-- `EnvRestart()` (spec/42_envelope.md R154). -/
def envRestart (s : State) : State := { s with epos := -64, ec := 0 }

/-! ## Register access (spec/45_register_access.md) -/

/-- `R[i] <- d AND MASK[i]` (R236). -/
def storeReg (i : Fin 16) (d : Byte) (s : State) : State :=
  { s with regs := s.regs.set i (d &&& regMask[i]) }

/-- The side effect of a write to register `i` (R240 to R246). The derived values of
spec/10_state.md R27 are computed from the register file at every use, so storing the byte already
recomputes them, and only the shape register has an effect of its own (R245). -/
def writeEffect (i : Fin 16) (s : State) : State := if i = 13 then envRestart s else s

/-- `WriteReg(a, d)` (R236): ignored at addresses 16..255 (R248). -/
def writeReg (a d : Byte) (s : State) : State :=
  if h : a.toNat < 16 then writeEffect ⟨a.toNat, h⟩ (storeReg ⟨a.toNat, h⟩ d s) else s

/-- The value `ReadReg(a)` returns (R230): the draw `OOR_READ` at addresses 16..255. -/
def readRegValue (a : Byte) (s : State) : Byte :=
  if h : a.toNat < 16 then s.reg ⟨a.toNat, h⟩ else drawnRead s

/-- `ReadReg(a)` changes no state (R230); an out-of-range read uses up its draw. -/
def readRegState (a : Byte) (s : State) : State := if a.toNat < 16 then s else useRead s

/-- `return ReadReg(a)`. -/
def returnReg (a : Byte) (s : State) : State :=
  handBack (.byte (readRegValue a s)) (readRegState a s)

/-- `LATCH <- a`. -/
def setLatch (a : Byte) (s : State) : State := { s with latch := a }

/-- `LATCH <- A; WriteReg(A, D)`, the shared body of WRREG (R234). -/
def latchedWrite (a d : Byte) (s : State) : State := writeReg a d (setLatch a s)

/-- One step of LOADREGS (R250): byte 13 equal to the sentinel 0xFF is not written. -/
def loadReg (f : Vector Byte 16) (s : State) (i : Fin 16) : State :=
  if i = 13 ∧ f[i] = 0xFF then s else writeReg (BitVec.ofNat 8 i.val) f[i] s

/-- The loop of LOADREGS over i = 0 .. 15 (R250). -/
def loadFrame (f : Vector Byte 16) (s : State) : State := (List.finRange 16).foldl (loadReg f) s

/-! ## Per-channel flags and overrides -/

/-- `TR[c] <- true` (spec/46_control_ops.md R272). -/
def requestToneReset (ch : Channel) (s : State) : State := { s with tr := s.tr.set ch true }

/-- `OVR[c] <- v` (spec/46_control_ops.md R274, R275). -/
def setOverride (ch : Channel) (v : Option Level) (s : State) : State :=
  { s with ovr := s.ovr.set ch v }

/-! ## Reset and construction (spec/46_control_ops.md R276, R278) -/

/-- Every state variable takes its value of spec/10_state.md R38 under a draw. The configuration and
the host port stay (R276, spec/70_reset_and_hazards.md R332). -/
def resetWith (d : ResetDraw) (s : State) : State :=
  { State.initial s.cfg d with
    pending := s.pending
    results := s.results
    fixedResets := s.fixedResets
    fixedReads := s.fixedReads
    drawn := s.drawn }

/-- Build an instance from a configuration and its draws; a configuration that is not well formed is
refused and never clamped (spec/00_scope.md R7, spec/46_control_ops.md R278). -/
def construct (cfg : Config) (d : ResetDraw) : Host.Outcome State Fault Refusal :=
  if cfg.wf then .next (State.initial cfg d) else .refused .illFormedConfig

end Sys2Proof.Machine
end

