-- ==== Sys2Proof/Machine/Access.lean ====
section
/-!
DEFINITION. The register access operations (spec/45_register_access.md).
-/

namespace Sys2Proof.Machine

/-- LATCH A: `LATCH <- A` (R231). -/
def execLatch (a : Byte) (s : State) : Host.Outcome State Fault Refusal := .next (setLatch a s)

/-- WRDATA D: `WriteReg(LATCH, D)` (R232). -/
def execWrdata (d : Byte) (s : State) : Host.Outcome State Fault Refusal :=
  .next (writeReg s.latch d s)

/-- RDDATA: `return ReadReg(LATCH)` (R233). -/
def execRddata (s : State) : Host.Outcome State Fault Refusal := .next (returnReg s.latch s)

/-- WRREG 0, tone A fine (R234, R240). -/
def execWrregR0 (d : Byte) (s : State) : Host.Outcome State Fault Refusal :=
  .next (latchedWrite 0 d s)

/-- WRREG 1, tone A coarse (R234, R240). -/
def execWrregR1 (d : Byte) (s : State) : Host.Outcome State Fault Refusal :=
  .next (latchedWrite 1 d s)

/-- WRREG 2, tone B fine (R234, R240). -/
def execWrregR2 (d : Byte) (s : State) : Host.Outcome State Fault Refusal :=
  .next (latchedWrite 2 d s)

/-- WRREG 3, tone B coarse (R234, R240). -/
def execWrregR3 (d : Byte) (s : State) : Host.Outcome State Fault Refusal :=
  .next (latchedWrite 3 d s)

/-- WRREG 4, tone C fine (R234, R240). -/
def execWrregR4 (d : Byte) (s : State) : Host.Outcome State Fault Refusal :=
  .next (latchedWrite 4 d s)

/-- WRREG 5, tone C coarse (R234, R240). -/
def execWrregR5 (d : Byte) (s : State) : Host.Outcome State Fault Refusal :=
  .next (latchedWrite 5 d s)

/-- WRREG 6, noise period (R234, R241). -/
def execWrregR6 (d : Byte) (s : State) : Host.Outcome State Fault Refusal :=
  .next (latchedWrite 6 d s)

/-- WRREG 7, mixer (R234, R242). -/
def execWrregR7 (d : Byte) (s : State) : Host.Outcome State Fault Refusal :=
  .next (latchedWrite 7 d s)

/-- WRREG 8, amplitude A (R234, R243). -/
def execWrregR8 (d : Byte) (s : State) : Host.Outcome State Fault Refusal :=
  .next (latchedWrite 8 d s)

/-- WRREG 9, amplitude B (R234, R243). -/
def execWrregR9 (d : Byte) (s : State) : Host.Outcome State Fault Refusal :=
  .next (latchedWrite 9 d s)

/-- WRREG 10, amplitude C (R234, R243). -/
def execWrregR10 (d : Byte) (s : State) : Host.Outcome State Fault Refusal :=
  .next (latchedWrite 10 d s)

/-- WRREG 11, envelope period low (R234, R244). -/
def execWrregR11 (d : Byte) (s : State) : Host.Outcome State Fault Refusal :=
  .next (latchedWrite 11 d s)

/-- WRREG 12, envelope period high (R234, R244). -/
def execWrregR12 (d : Byte) (s : State) : Host.Outcome State Fault Refusal :=
  .next (latchedWrite 12 d s)

/-- WRREG 13, envelope shape: the envelope restarts (R234, R245). -/
def execWrregR13 (d : Byte) (s : State) : Host.Outcome State Fault Refusal :=
  .next (latchedWrite 13 d s)

/-- WRREG 14, I/O port A (R234, R246). -/
def execWrregR14 (d : Byte) (s : State) : Host.Outcome State Fault Refusal :=
  .next (latchedWrite 14 d s)

/-- WRREG 15, I/O port B (R234, R246). -/
def execWrregR15 (d : Byte) (s : State) : Host.Outcome State Fault Refusal :=
  .next (latchedWrite 15 d s)

/-- WRREG at addresses 128..255: only `LATCH` changes (R234, R248). -/
def execWrregOor128 (a d : Byte) (s : State) : Host.Outcome State Fault Refusal :=
  .next (latchedWrite a d s)

/-- WRREG at addresses 64..127: only `LATCH` changes (R234, R248). -/
def execWrregOor64 (a d : Byte) (s : State) : Host.Outcome State Fault Refusal :=
  .next (latchedWrite a d s)

/-- WRREG at addresses 32..63: only `LATCH` changes (R234, R248). -/
def execWrregOor32 (a d : Byte) (s : State) : Host.Outcome State Fault Refusal :=
  .next (latchedWrite a d s)

/-- WRREG at addresses 16..31: only `LATCH` changes (R234, R248). -/
def execWrregOor16 (a d : Byte) (s : State) : Host.Outcome State Fault Refusal :=
  .next (latchedWrite a d s)

/-- RDREG A: `LATCH <- A`, `return ReadReg(A)` (R235). -/
def execRdreg (a : Byte) (s : State) : Host.Outcome State Fault Refusal :=
  .next (returnReg a (setLatch a s))

/-- LOADREGS F[0..15] (R250). -/
def execLoadregs (v0 v1 v2 v3 : Word) (s : State) : Host.Outcome State Fault Refusal :=
  .next (loadFrame (frameOfWords v0 v1 v2 v3) s)

/-- DUMPREGS: `return [R[0], ..., R[15]]` (R251). -/
def execDumpregs (s : State) : Host.Outcome State Fault Refusal :=
  .next (handBack (.frame s.regs) s)

end Sys2Proof.Machine
end

