-- ==== Sys2Proof/Machine/Envelope.lean ====
section
/-!
DEFINITION. The envelope generator and its table (spec/42_envelope.md).
-/

namespace Sys2Proof.Machine

/-- The kinds of 32-entry block (R152). -/
inductive EnvBlock
  | up
  | dn
  | lo
  | hi
deriving DecidableEq, Repr

/-- Entry `k` of a block: UP(k) = k, DN(k) = 31 - k, LO(k) = 0, HI(k) = 31 (R152). -/
def blockEntry (b : EnvBlock) (k : Nat) : Level :=
  match b with
  | .up => BitVec.ofNat 5 k
  | .dn => BitVec.ofNat 5 (31 - k)
  | .lo => 0
  | .hi => 31

/-- The four blocks of each of the ten patterns (R152). -/
def envPatterns : List (List EnvBlock) :=
  [[.dn, .lo, .lo, .lo],
   [.up, .lo, .lo, .lo],
   [.dn, .dn, .dn, .dn],
   [.dn, .lo, .lo, .lo],
   [.dn, .up, .dn, .up],
   [.dn, .hi, .hi, .hi],
   [.up, .up, .up, .up],
   [.up, .hi, .hi, .hi],
   [.up, .dn, .up, .dn],
   [.up, .lo, .lo, .lo]]

/-- Block `j` of pattern `p`. There are patterns 0..9 and blocks 0..3 only; the default stands for
indices no run reaches (log 16). -/
def envBlock (p j : Nat) : EnvBlock := (envPatterns.getD p []).getD j .lo

/-- `ENV[i]`: entry `ENV[128p + 32j + k]` is entry k of block j of pattern p (R152). -/
def envEntry (i : Nat) : Level := blockEntry (envBlock (i / 128) (i % 128 / 32)) (i % 32)

/-- The envelope level `ENV[EOFF + EPOS + 64]` (R151). -/
def State.envLevel (s : State) : Level := envEntry ((s.eoff : Int) + s.epos + 64).toNat

/-- `EPOS AND 63` once the position exceeds 0, kept as it is (R150, R159). -/
def wrapPos (p : Int) : Int := if p > 0 then p % 64 else p

/-- The envelope tick (R150). -/
def envTick (s : State) : State :=
  if s.ec + 1 ≥ s.ep.toNat then { s with ec := 0, epos := wrapPos (s.epos + 1) }
  else { s with ec := s.ec + 1 }

end Sys2Proof.Machine
end

