-- ==== Sys2Proof/Machine/Output.lean ====
section
/-!
DEFINITION. The conversion of the output value to IEEE 754 binary32 (spec/43_mixer_output.md R194), in
exact integer arithmetic.
-/

namespace Sys2Proof.Machine

/-- `clamp(v, lo, hi)` (spec/00_scope.md R9). -/
def clampInt (v lo hi : Int) : Int := min (max v lo) hi

/-- The quotient `n / d` rounded to the nearest natural, ties to even. -/
def roundHalfEven (n d : Nat) : Nat :=
  if 2 * (n % d) < d then n / d
  else if d < 2 * (n % d) then n / d + 1
  else n / d + n / d % 2

/-- Starting at `k`, the least shift that makes `n * 2^k ≥ d`, looking at `fuel` shifts. For a quotient
`n / d` of at most 1, the exponent of its leading binary digit is minus this shift. -/
def leadShift (n d : Nat) : Nat → Nat → Nat
  | 0, k => k
  | fuel + 1, k => if d ≤ n * 2 ^ k then k else leadShift n d fuel (k + 1)

/-- The bits of the binary32 value nearest to `n / d`, ties to even, for `n ≤ d` and `0 < d`. The
exponent -126 is the least, so a smaller quotient is rounded as a subnormal value. A significand that
rounds up to 2^24 carries into the exponent field. -/
def magnitudeBits (n d : Nat) : Nat :=
  (126 - leadShift n d 126 0) * 2 ^ 23 + roundHalfEven (n * 2 ^ (23 + leadShift n d 126 0)) d

/-- `binary32(n / d)` (R194). A value of 0 gives +0.0. A negative quotient so small that it rounds to
zero takes a free sign (log 14). -/
def binary32 (n : Int) (d : Nat) : BitVec 32 :=
  if 0 ≤ n then BitVec.ofNat 32 (magnitudeBits n.natAbs d)
  else if magnitudeBits n.natAbs d = 0 then
    (if Config.freeZeroSign n d then 0x80000000 else 0x00000000)
  else BitVec.ofNat 32 (2 ^ 31 + magnitudeBits n.natAbs d)

/-- `SAMPLE` for an output value: `binary32(clamp(out, -OUT_SCALE, OUT_SCALE) / OUT_SCALE)` (R194). -/
def sampleOf (out : Int) (scale : Nat) : BitVec 32 :=
  binary32 (clampInt out (-scale) scale) scale

/-! ## What a finite binary32 value is worth, for statements about the conversion -/

/-- The magnitude of a finite binary32 value in units of 2^-149, from its exponent and fraction bits
(IEEE 754, spec/10_state.md R36). -/
def binary32Units (b : Nat) : Nat :=
  if b / 2 ^ 23 = 0 then b else (2 ^ 23 + b % 2 ^ 23) * 2 ^ (b / 2 ^ 23 - 1)

/-- How far a finite binary32 magnitude lies from `n / d`, times `d * 2^149`. -/
def binary32Error (n d b : Nat) : Nat :=
  ((binary32Units b * d : Nat) - (n * 2 ^ 149 : Nat) : Int).natAbs

end Sys2Proof.Machine
end

