-- ==== Sys2Proof/Machine/Mixer.lean ====
section
/-!
DEFINITION. The mixer and the output stage (spec/43_mixer_output.md).
-/

namespace Sys2Proof.Machine

/-! ## Gating, per tick -/

/-- `GATE <- GATE OR g` (R180, R181). -/
def accumulateGate (s : State) : State := { s with gate := s.gate ||| s.gateMask }

/-! ## Levels, per host sample -/

/-- `level5(c)` (R183, R184): the override, else the envelope level, else the fixed level times 2. -/
def State.level5 (s : State) (ch : Channel) : Level :=
  match s.ovr.get ch with
  | some l => l
  | none => if s.ampMode ch then s.envLevel else s.ampFixed ch ++ 0#1

/-- `idx(c) = level5(c) AND GATE[5c+4:5c]` (R185). -/
def State.levelIndex (s : State) (ch : Channel) : Level := s.level5 ch &&& fieldOf s.gate ch

/-- `LVL[i]` (R186). -/
def lvlAt (c : Config) (i : Level) : Nat := c.lvl[i.toNat]

/-- `a(c)` (R187, R188): the table value, halved where the tone period is 0 or 1. -/
def State.amplitude (s : State) (ch : Channel) : Nat :=
  if (s.tp ch).toNat ≤ 1 then lvlAt s.cfg (s.levelIndex ch) >>> 1
  else lvlAt s.cfg (s.levelIndex ch)

/-- `x = a(0) + a(1) + a(2)` (R189). -/
def State.mixedSum (s : State) : Nat := s.amplitude .a + s.amplitude .b + s.amplitude .c

/-! ## Filters -/

/-- The DC update (R191): the new sum replaces the oldest entry of the ring. An index outside the ring
reads 0 and writes nothing; no run reaches one (log 16). -/
def dcUpdate (x : Nat) (s : State) : State :=
  { s with
    dcs := s.dcs - (s.dch.getD s.dci 0 : Nat) + x
    dch := s.dch.set s.dci x
    dci := (s.dci + 1) % s.cfg.dcWindow }

/-- `y = x - floor(DCS / W)`, `DCS` being the updated sum (R191). `Int.fdiv` is floor division. -/
def dcRemoved (x : Nat) (s : State) : Int := (x : Int) - Int.fdiv s.dcs s.cfg.dcWindow

/-- `z = floor((FY2 + 2 FY1 + y) / 4)` (R192). -/
def firValue (y : Int) (s : State) : Int := Int.fdiv (s.fy2 + 2 * s.fy1 + y) 4

/-- The FIR history update, done whatever `FILT` is (R192). -/
def firUpdate (y : Int) (s : State) : State := { s with fy2 := s.fy1, fy1 := y }

/-- `out = z` if `FILT`, else `out = y` (R193). -/
def outputValue (y : Int) (s : State) : Int := if s.filt then firValue y s else y

/-- The filters and the conversion, for a mixed sum `x` (R191 to R194). -/
def outputStage (x : Nat) (s : State) : State :=
  let s1 := dcUpdate x s
  let y := dcRemoved x s1
  { firUpdate y s1 with sample := sampleOf (outputValue y s1) s.cfg.outScale }

/-- `Mix()` (R195). -/
def mix (s : State) : State := outputStage s.mixedSum s

end Sys2Proof.Machine
end

