-- ==== Sys2Proof/Machine/Noise.lean ====
section
/-!
DEFINITION. The noise generator (spec/41_noise.md).
-/

namespace Sys2Proof.Machine

/-- One shift of the LFSR: right by one, with bits 16 and 13 flipped when the ejected bit was 1
(R130, R132). -/
def lfsrStep (v : BitVec 17) : BitVec 17 :=
  (v >>> 1) ^^^ (if v.getLsbD 0 then 0x12000 else 0x00000)

/-- The noise mask the ejected bit gives (R130, R133). -/
def noiseMaskOf (bit : Bool) : Mask15 := if bit then 0x7FFF else 0x0000

/-- The noise tick (R130): the parity toggles first, and the tick is active when it becomes 1 (R131). -/
def noiseTick (s : State) : State :=
  if s.nh then { s with nh := false }
  else if s.nc + 1 ≥ max s.np.toNat 1 then
    { s with
      nh := true
      lfsr := lfsrStep s.lfsr
      nm := noiseMaskOf (s.lfsr.getLsbD 0)
      nc := 0 }
  else { s with nh := true, nc := s.nc + 1 }

end Sys2Proof.Machine
end

