-- ==== Sys2Proof/Machine/Tone.lean ====
section
/-!
DEFINITION. The tone generators (spec/40_tone.md).
-/

namespace Sys2Proof.Machine

/-- One channel's part of the tone tick (R110). -/
def toneStep (ch : Channel) (s : State) : State :=
  if s.tc.get ch + 1 ≥ (s.tp ch).toNat then
    { s with te := s.te ^^^ fieldMask ch, tc := s.tc.set ch 0 }
  else { s with tc := s.tc.set ch (s.tc.get ch + 1) }

/-- The tone tick, for c = 0, 1, 2 (R110). -/
def toneTick (s : State) : State := toneStep .c (toneStep .b (toneStep .a s))

/-- The deferred reset of one channel, resolved at the start of CLOCK (R113). -/
def resolveToneReset (ch : Channel) (s : State) : State :=
  if s.tr.get ch then { s with tc := s.tc.set ch 0, tr := s.tr.set ch false } else s

/-- The deferred resets, for c = 0, 1, 2 (R113). -/
def resolveToneResets (s : State) : State :=
  resolveToneReset .c (resolveToneReset .b (resolveToneReset .a s))

end Sys2Proof.Machine
end

