-- ==== Sys2Proof/Machine/Clock.lean ====
section
/-!
DEFINITION. The internal tick, the rate divider, CLOCK and GETSAMPLE (spec/44_clock_divider.md).
-/

namespace Sys2Proof.Machine

/-- `Tick()` (R213). -/
def tick (s : State) : State := accumulateGate (envTick (noiseTick (toneTick s)))

/-- `Tick(); ACC <- ACC + HOST_RATE` (R214). -/
def tickAndCount (s : State) : State :=
  let s' := tick s
  { s' with acc := s'.acc + s'.cfg.hostRate }

/-- `repeat Tick(); ACC <- ACC + HOST_RATE until ACC >= INTERNAL_RATE` (R214), in at most `fuel`
rounds. `INTERNAL_RATE` rounds are always enough, because `HOST_RATE` is at least 1 (log 13). -/
def clockTicks : Nat → State → State
  | 0, s => s
  | fuel + 1, s =>
    let s' := tickAndCount s
    if s'.acc ≥ s'.cfg.internalRate then s' else clockTicks fuel s'

/-- CLOCK: the deferred resets, the ticks, the accumulator's subtraction, Mix, the gate clear (R214,
spec/60_exceptions.md R303). -/
def clockSample (s : State) : State :=
  let s1 := clockTicks s.cfg.internalRate (resolveToneResets s)
  let s2 := mix { s1 with acc := s1.acc - s1.cfg.internalRate }
  { s2 with gate := 0 }

/-- CLOCK (R214). -/
def execClock (s : State) : Host.Outcome State Fault Refusal := .next (clockSample s)

/-- GETSAMPLE: `return SAMPLE` (R216). -/
def execGetsample (s : State) : Host.Outcome State Fault Refusal :=
  .next (handBack (.sample s.sample) s)

end Sys2Proof.Machine
end

