-- ==== Sys2Proof/Machine/Control.lean ====
section
/-!
DEFINITION. The control operations (spec/46_control_ops.md).
-/

namespace Sys2Proof.Machine

/-- SETFILTER B: `FILT <- (B == 1)` (R270). -/
def execSetfilter (on : Bool) (s : State) : Host.Outcome State Fault Refusal :=
  .next { s with filt := on }

/-- TONERESET a: `TR[a] <- true` (R272). -/
def execToneresetA (s : State) : Host.Outcome State Fault Refusal :=
  .next (requestToneReset .a s)

/-- TONERESET b: `TR[b] <- true` (R272). -/
def execToneresetB (s : State) : Host.Outcome State Fault Refusal :=
  .next (requestToneReset .b s)

/-- TONERESET c: `TR[c] <- true` (R272). -/
def execToneresetC (s : State) : Host.Outcome State Fault Refusal :=
  .next (requestToneReset .c s)

/-- ENVTRIG: `EnvRestart()` (R273). -/
def execEnvtrig (s : State) : Host.Outcome State Fault Refusal := .next (envRestart s)

/-- SETOVR a, L: `OVR[a] <- L` (R274). -/
def execSetovrA (l : Level) (s : State) : Host.Outcome State Fault Refusal :=
  .next (setOverride .a (some l) s)

/-- SETOVR b, L: `OVR[b] <- L` (R274). -/
def execSetovrB (l : Level) (s : State) : Host.Outcome State Fault Refusal :=
  .next (setOverride .b (some l) s)

/-- SETOVR c, L: `OVR[c] <- L` (R274). -/
def execSetovrC (l : Level) (s : State) : Host.Outcome State Fault Refusal :=
  .next (setOverride .c (some l) s)

/-- CLROVR a: `OVR[a] <- none` (R275). -/
def execClrovrA (s : State) : Host.Outcome State Fault Refusal :=
  .next (setOverride .a none s)

/-- CLROVR b: `OVR[b] <- none` (R275). -/
def execClrovrB (s : State) : Host.Outcome State Fault Refusal :=
  .next (setOverride .b none s)

/-- CLROVR c: `OVR[c] <- none` (R275). -/
def execClrovrC (s : State) : Host.Outcome State Fault Refusal :=
  .next (setOverride .c none s)

/-- RESET: fresh draws, then every state variable its value of spec/10_state.md R38 (R276). -/
def execReset (s : State) : Host.Outcome State Fault Refusal :=
  .next (resetWith (drawnReset s) (useReset s))

/-- NOP: no state change, no result (R277). -/
def execNop (s : State) : Host.Outcome State Fault Refusal := .next s

end Sys2Proof.Machine
end

