-- ==== Sys2Proof/Machine/Dispatch.lean ====
section
/-!
DEFINITION. The meaning of each operation, one arm per constructor.
-/

namespace Sys2Proof.Machine

/-- One operation of the host on a state (spec/30_encoding.md R82). -/
def exec (i : Instr) (s : State) : Host.Outcome State Fault Refusal :=
  match i with
  | .nop => Sys2Proof.Machine.execNop s
  | .latch a => Sys2Proof.Machine.execLatch a s
  | .wrdata d => Sys2Proof.Machine.execWrdata d s
  | .rddata => Sys2Proof.Machine.execRddata s
  | .wrregR0 d => Sys2Proof.Machine.execWrregR0 d s
  | .wrregR1 d => Sys2Proof.Machine.execWrregR1 d s
  | .wrregR2 d => Sys2Proof.Machine.execWrregR2 d s
  | .wrregR3 d => Sys2Proof.Machine.execWrregR3 d s
  | .wrregR4 d => Sys2Proof.Machine.execWrregR4 d s
  | .wrregR5 d => Sys2Proof.Machine.execWrregR5 d s
  | .wrregR6 d => Sys2Proof.Machine.execWrregR6 d s
  | .wrregR7 d => Sys2Proof.Machine.execWrregR7 d s
  | .wrregR8 d => Sys2Proof.Machine.execWrregR8 d s
  | .wrregR9 d => Sys2Proof.Machine.execWrregR9 d s
  | .wrregR10 d => Sys2Proof.Machine.execWrregR10 d s
  | .wrregR11 d => Sys2Proof.Machine.execWrregR11 d s
  | .wrregR12 d => Sys2Proof.Machine.execWrregR12 d s
  | .wrregR13 d => Sys2Proof.Machine.execWrregR13 d s
  | .wrregR14 d => Sys2Proof.Machine.execWrregR14 d s
  | .wrregR15 d => Sys2Proof.Machine.execWrregR15 d s
  | .wrregOor128 a d => Sys2Proof.Machine.execWrregOor128 a d s
  | .wrregOor64 a d => Sys2Proof.Machine.execWrregOor64 a d s
  | .wrregOor32 a d => Sys2Proof.Machine.execWrregOor32 a d s
  | .wrregOor16 a d => Sys2Proof.Machine.execWrregOor16 a d s
  | .rdreg a => Sys2Proof.Machine.execRdreg a s
  | .clock => Sys2Proof.Machine.execClock s
  | .getsample => Sys2Proof.Machine.execGetsample s
  | .loadregs v0 v1 v2 v3 => Sys2Proof.Machine.execLoadregs v0 v1 v2 v3 s
  | .dumpregs => Sys2Proof.Machine.execDumpregs s
  | .setfilter on => Sys2Proof.Machine.execSetfilter on s
  | .toneresetA => Sys2Proof.Machine.execToneresetA s
  | .toneresetB => Sys2Proof.Machine.execToneresetB s
  | .toneresetC => Sys2Proof.Machine.execToneresetC s
  | .envtrig => Sys2Proof.Machine.execEnvtrig s
  | .setovrA l => Sys2Proof.Machine.execSetovrA l s
  | .setovrB l => Sys2Proof.Machine.execSetovrB l s
  | .setovrC l => Sys2Proof.Machine.execSetovrC l s
  | .clrovrA => Sys2Proof.Machine.execClrovrA s
  | .clrovrB => Sys2Proof.Machine.execClrovrB s
  | .clrovrC => Sys2Proof.Machine.execClrovrC s
  | .reset => Sys2Proof.Machine.execReset s

end Sys2Proof.Machine
end

