-- ==== Sys2Proof/Machine/Step.lean ====
section
/-!
DEFINITION. One step: the block takes the next operation of the host's queue and performs it.
-/

namespace Sys2Proof.Machine

/-- One step (log 5). With no operation issued nothing happens (spec/00_scope.md R4,
spec/60_exceptions.md R311). Otherwise the operation at the front of the queue is taken and performed
(spec/20_memory.md R71); an illegal or truncated one is refused (spec/30_encoding.md R95). No instance
has an ill-formed configuration (spec/00_scope.md R7; log 12). -/
def step (s : State) : Host.Outcome State Fault Refusal :=
  if s.cfg.wf then
    if s.pending = [] then .next s
    else
      match decode s.pending with
      | .instr i rest => exec i { s with pending := rest }
      | .reject r => .refused (.rejected r)
  else .refused .illFormedConfig

/-- The state with the words of the opcode table's operation put at the front of the queue, where the
next step takes them, and nothing else changed. The words are those of `tableBytes`, as many as the
operation has. -/
def State.withFetchWord (s : State) (nbits w : Nat) : State :=
  { s with
    pending :=
      (match wordsOfBytes (tableBytes nbits w) with
        | some ws => ws.take (opLength ws)
        | none => []) ++ s.pending }

end Sys2Proof.Machine
end

