-- ==== Sys2Proof/Machine/Assembler.lean ====
section
/-!
DEFINITION. The assembler syntax (spec/30_encoding.md R89) and the pseudo-instructions (R90). A line is
a list of characters; what the syntax leaves open (blanks, an empty line) is log 19.
-/

namespace Sys2Proof.Machine

/-! ## Pseudo-instructions (R90) -/

/-- The pseudo-instructions of R90. -/
inductive Pseudo
  | settone (ch : Channel) (p : Nat)
  | setnoise (p : Nat)
  | setmixer (m : Nat)
  | setamp (ch : Channel) (v : Nat)
  | setenv (p : Nat)
  | setshape (s : Nat)
  | clockn (n : Nat)
  | sample
deriving DecidableEq, Repr

/-- `wrreg a, d`, for an address and a data byte in range. -/
def wrregOp (a d : Nat) : Option Instr :=
  if a < 256 ∧ d < 256 then some (decodeWrreg (BitVec.ofNat 8 a) (BitVec.ofNat 8 d)) else none

/-- Two operations, where both are in range. -/
def bothOps (i j : Option Instr) : Option (List Instr) :=
  match i, j with
  | some i, some j => some [i, j]
  | _, _ => none

/-- The expansion of a pseudo-instruction, or none where an operand is out of its range: an assembly
error (R90). -/
def Pseudo.expand : Pseudo → Option (List Instr)
  | .settone ch p =>
    if p ≤ 4095 then
      bothOps (wrregOp (2 * ch.index) (p % 256)) (wrregOp (2 * ch.index + 1) (p / 256))
    else none
  | .setnoise p => if p ≤ 31 then (wrregOp 6 p).map fun i => [i] else none
  | .setmixer m => (wrregOp 7 m).map fun i => [i]
  | .setamp ch v => (wrregOp (8 + ch.index) v).map fun i => [i]
  | .setenv p =>
    if p ≤ 65535 then bothOps (wrregOp 11 (p % 256)) (wrregOp 12 (p / 256)) else none
  | .setshape s => (wrregOp 13 s).map fun i => [i]
  | .clockn n => some (List.replicate n .clock)
  | .sample => some [.clock, .getsample]

/-! ## Operands (R89) -/

/-- A blank between the parts of a line. -/
def isBlank (c : Char) : Bool := c = ' ' || c = '\t'

/-- Drop the blanks at both ends. -/
def trimBlanks (cs : List Char) : List Char :=
  ((cs.dropWhile isBlank).reverse.dropWhile isBlank).reverse

/-- The value of a digit in a base of 10 or 16. -/
def digitValue (base : Nat) (c : Char) : Option Nat :=
  if '0' ≤ c ∧ c ≤ '9' then some (c.toNat - '0'.toNat)
  else if base = 16 ∧ 'a' ≤ c ∧ c ≤ 'f' then some (c.toNat - 'a'.toNat + 10)
  else if base = 16 ∧ 'A' ≤ c ∧ c ≤ 'F' then some (c.toNat - 'A'.toNat + 10)
  else none

/-- Read the remaining digits of a number. -/
def readDigits (base : Nat) : Nat → List Char → Option Nat
  | n, [] => some n
  | n, c :: cs =>
    match digitValue base c with
    | some v => readDigits base (n * base + v) cs
    | none => none

/-- A number, decimal or `0x` hexadecimal. -/
def readNumber : List Char → Option Nat
  | [] => none
  | ['0', 'x'] => none
  | '0' :: 'x' :: cs => readDigits 16 0 cs
  | cs => readDigits 10 0 cs

/-- A register address: a number 0..255, or `r0` .. `r15`. -/
def readAddress : List Char → Option Nat
  | 'r' :: cs =>
    match readDigits 10 0 cs with
    | some n => if cs ≠ [] ∧ n ≤ 15 then some n else none
    | none => none
  | cs =>
    match readNumber cs with
    | some n => if n ≤ 255 then some n else none
    | none => none

/-- A channel: 0, 1, 2 or `a`, `b`, `c`. -/
def readChannel : List Char → Option Channel
  | ['a'] => some .a
  | ['b'] => some .b
  | ['c'] => some .c
  | cs =>
    match readNumber cs with
    | some 0 => some .a
    | some 1 => some .b
    | some 2 => some .c
    | _ => none

/-- A number below a bound. -/
def readBelow (bound : Nat) (cs : List Char) : Option Nat :=
  match readNumber cs with
  | some n => if n < bound then some n else none
  | none => none

/-- A data byte. -/
def readByte (cs : List Char) : Option Byte := (readBelow 256 cs).map (BitVec.ofNat 8)

/-- The 16 bytes of a frame, in order. -/
def readBytes : List (List Char) → Option (List Byte)
  | [] => some []
  | cs :: rest =>
    match readByte cs, readBytes rest with
    | some b, some bs => some (b :: bs)
    | _, _ => none

/-- The data word of four frame bytes (R83). -/
def wordOfBytes (b0 b1 b2 b3 : Byte) : Word := b3 ++ b2 ++ b1 ++ b0

/-- `loadregs` of 16 bytes. -/
def loadregsOp : List Byte → Option Instr
  | [f0, f1, f2, f3, f4, f5, f6, f7, f8, f9, f10, f11, f12, f13, f14, f15] =>
    some (.loadregs (wordOfBytes f0 f1 f2 f3) (wordOfBytes f4 f5 f6 f7)
      (wordOfBytes f8 f9 f10 f11) (wordOfBytes f12 f13 f14 f15))
  | _ => none

/-- `tonereset C`. -/
def toneresetOp : Channel → Instr
  | .a => .toneresetA
  | .b => .toneresetB
  | .c => .toneresetC

/-- `setovr C, L`. -/
def setovrOp (l : Level) : Channel → Instr
  | .a => .setovrA l
  | .b => .setovrB l
  | .c => .setovrC l

/-- `clrovr C`. -/
def clrovrOp : Channel → Instr
  | .a => .clrovrA
  | .b => .clrovrB
  | .c => .clrovrC

/-! ## Lines (R89) -/

/-- The operations of a mnemonic and its operands, or none for an assembly error. -/
def assembleOp (name : List Char) (ops : List (List Char)) : Option (List Instr) :=
  match String.ofList name, ops with
  | "nop", [] => some [.nop]
  | "latch", [a] => (readAddress a).map fun a => [.latch (BitVec.ofNat 8 a)]
  | "wrdata", [d] => (readByte d).map fun d => [.wrdata d]
  | "rddata", [] => some [.rddata]
  | "wrreg", [a, d] =>
    match readAddress a, readByte d with
    | some a, some d => some [decodeWrreg (BitVec.ofNat 8 a) d]
    | _, _ => none
  | "rdreg", [a] => (readAddress a).map fun a => [.rdreg (BitVec.ofNat 8 a)]
  | "clock", [] => some [.clock]
  | "getsample", [] => some [.getsample]
  | "loadregs", fs =>
    match readBytes fs with
    | some bs => (loadregsOp bs).map fun i => [i]
    | none => none
  | "dumpregs", [] => some [.dumpregs]
  | "setfilter", [b] => (readBelow 2 b).map fun b => [.setfilter (b == 1)]
  | "tonereset", [x] => (readChannel x).map fun ch => [toneresetOp ch]
  | "envtrig", [] => some [.envtrig]
  | "setovr", [x, l] =>
    match readChannel x, readBelow 32 l with
    | some ch, some l => some [setovrOp (BitVec.ofNat 5 l) ch]
    | _, _ => none
  | "clrovr", [x] => (readChannel x).map fun ch => [clrovrOp ch]
  | "reset", [] => some [.reset]
  | "settone", [x, p] =>
    match readChannel x, readNumber p with
    | some ch, some p => (Pseudo.settone ch p).expand
    | _, _ => none
  | "setnoise", [p] => (readNumber p).bind fun p => (Pseudo.setnoise p).expand
  | "setmixer", [m] => (readNumber m).bind fun m => (Pseudo.setmixer m).expand
  | "setamp", [x, v] =>
    match readChannel x, readNumber v with
    | some ch, some v => (Pseudo.setamp ch v).expand
    | _, _ => none
  | "setenv", [p] => (readNumber p).bind fun p => (Pseudo.setenv p).expand
  | "setshape", [s] => (readNumber s).bind fun s => (Pseudo.setshape s).expand
  | "clockn", [n] => (readNumber n).bind fun n => (Pseudo.clockn n).expand
  | "sample", [] => Pseudo.sample.expand
  | _, _ => none

/-- The parts of a text between commas. -/
def splitCommas : List Char → List (List Char)
  | [] => [[]]
  | c :: cs =>
    if c = ',' then [] :: splitCommas cs
    else
      match splitCommas cs with
      | part :: parts => (c :: part) :: parts
      | [] => [[c]]

/-- The operand texts of a line, after its mnemonic. -/
def operandTexts (cs : List Char) : List (List Char) :=
  if cs = [] then [] else (splitCommas cs).map trimBlanks

/-- The operations of one line: a comment starts with `;`, the mnemonic ends at the first blank, commas
stand between the operands. An empty line is no operation (log 19). -/
def assembleLine (line : List Char) : Option (List Instr) :=
  let code := trimBlanks (line.takeWhile (· ≠ ';'))
  if code = [] then some []
  else
    assembleOp (code.takeWhile fun c => !isBlank c)
      (operandTexts (trimBlanks (code.dropWhile fun c => !isBlank c)))

/-- The words of one line. -/
def assembleWords (line : List Char) : Option (List Word) :=
  (assembleLine line).map fun is => is.flatMap encode

end Sys2Proof.Machine
end

