-- ==== Sys2Proof/Safety.lean ====
section
/-!
DEFINITION. What counts as a safe state and a safe run: the invariant of spec/10_state.md, the states
the host can bring an instance to (spec/70_reset_and_hazards.md R336, R337), and repeated operations.
-/

namespace Sys2Proof.Machine

/-- What spec/10_state.md says always holds between two operations. `maxSum` of R190 is 3 × 65535,
because every table entry is at most 65535 (spec/00_scope.md R6). -/
structure State.Inv (s : State) : Prop where
  /-- The instance's configuration is well formed (spec/00_scope.md R7). -/
  cfg_wf : s.cfg.wf = true
  /-- Register i never holds a bit outside `MASK[i]` (R21). -/
  regs_masked : ∀ i : Fin 16, s.reg i &&& ~~~regMask[i] = 0
  /-- `TC[c]` ≤ 4094 (R28). -/
  tc_le : ∀ ch, s.tc.get ch ≤ 4094
  /-- Each edge field is 0x00 or 0x1F (R28). -/
  te_field : ∀ ch, fieldOf s.te ch = 0x00 ∨ fieldOf s.te ch = 0x1F
  /-- `NC` ≤ 30 (R29). -/
  nc_le : s.nc ≤ 30
  /-- `LFSR` is never 0 (R29). -/
  lfsr_ne : s.lfsr ≠ 0
  /-- `NM` is 0x0000 or 0x7FFF (R29). -/
  nm_eq : s.nm = 0x0000 ∨ s.nm = 0x7FFF
  /-- `EC` ≤ 65534 (R30). -/
  ec_le : s.ec ≤ 65534
  /-- −64 ≤ `EPOS` ≤ 63 (R30). -/
  epos_range : -64 ≤ s.epos ∧ s.epos ≤ 63
  /-- `ACC` < `INTERNAL_RATE` (R31). -/
  acc_lt : s.acc < s.cfg.internalRate
  /-- `GATE` is 0 between operations (R32). -/
  gate_eq : s.gate = 0
  /-- The ring has `DC_WINDOW` entries (R33). -/
  dch_length : s.dch.length = s.cfg.dcWindow
  /-- The ring index is in the ring (R33). -/
  dci_lt : s.dci < s.cfg.dcWindow
  /-- `DCS` is the sum of the ring (R33). -/
  dcs_eq : s.dcs = (s.dch.sum : Nat)
  /-- Every entry is a mixed sum (R33, spec/43_mixer_output.md R190). -/
  dch_le : ∀ x ∈ s.dch, x ≤ 3 * 65535
  /-- `FY1` is a DC-removed value, in [−max x, max x] (R34, spec/43_mixer_output.md R191). -/
  fy1_le : s.fy1.natAbs ≤ 3 * 65535
  /-- `FY2` is one too. -/
  fy2_le : s.fy2.natAbs ≤ 3 * 65535
  /-- `SAMPLE` is in [−1.0, 1.0] (R36): its magnitude bits are at most those of 1.0. -/
  sample_range : s.sample.toNat % 2 ^ 31 ≤ 0x3F800000

/-- The states the host can bring an instance to (spec/70_reset_and_hazards.md R336): construction from
a well-formed configuration, issuing words, fixing draws, and the block's own steps. -/
inductive Reachable : State → Prop
  | construct {cfg : Config} {d : ResetDraw} {s : State} :
      construct cfg d = .next s → Reachable s
  | issue {s : State} (ws : List Word) : Reachable s → Reachable (hostIssue ws s)
  | fixReset {s : State} (d : ResetDraw) : Reachable s → Reachable (hostFixReset d s)
  | fixRead {s : State} (v : Byte) : Reachable s → Reachable (hostFixRead v s)
  | step {s t : State} : Reachable s → step s = .next t → Reachable t

/-- The same operation `n` times, stopping where it does not complete. -/
def execTimes (i : Instr) : Nat → State → Host.Outcome State Fault Refusal
  | 0, s => .next s
  | n + 1, s =>
    match exec i s with
    | .next t => execTimes i n t
    | .fault f => .fault f
    | .refused r => .refused r

/-- Nothing sounds (spec/70_reset_and_hazards.md R333): the fixed level 0 in every channel, no
override, `LVL[0]` = 0, empty filters and a silent sample. -/
structure State.Silent (s : State) : Prop where
  amp_zero : ∀ ch, s.reg (ampIndex ch) = 0
  no_override : ∀ ch, s.ovr.get ch = none
  lvl_zero : lvlAt s.cfg 0 = 0
  ring_zero : ∀ x ∈ s.dch, x = 0
  sum_zero : s.dcs = 0
  fy1_zero : s.fy1 = 0
  fy2_zero : s.fy2 = 0
  sample_zero : s.sample = 0

end Sys2Proof.Machine
end

