-- ==== Sys2Proof/Certificates/Slice0/Obligations.lean ====
section
/-!
DEFINITION. What is claimed of the model, one proposition each. Every statement ranges over every
configuration, because the configuration is a field of the state (log 1), and over every free value.
-/

open Sys2Proof Sys2Proof.Machine

/-! ## Encoding and decoding (spec/30_encoding.md) -/

/-- Decoding what the encoder writes for a well-formed operation gives it back, with every operand at
every value, and leaves the words after it alone. -/
def Obligations.DecodeAfterEncodeGivesInstruction : Prop :=
  ∀ (i : Instr) (rest : List Word), i.wf = true → decode (encode i ++ rest) = .instr i rest

/-- The other direction: words that decode to an operation are the words the encoder writes for it,
and the operation is well formed, so each word sequence has one meaning. -/
def Obligations.DecodedWordsAreTheEncoding : Prop :=
  ∀ (ws : List Word) (i : Instr) (rest : List Word),
    decode ws = .instr i rest → i.wf = true ∧ ws = encode i ++ rest

/-- The decoder rejects exactly the words the six items of R87 list (the spec's own decision D9), and
a legal word decodes unless it is a LOADREGS with fewer than four data words after it (R86). -/
def Obligations.DecoderRejectsExactlyIllegalWords : Prop :=
  ∀ (w : Word) (rest : List Word),
    (illegalWord w = true → ∃ r, decode (w :: rest) = .reject (.illegal r)) ∧
    (illegalWord w = false → (w = 0x08000000 → 4 ≤ rest.length) →
      ∃ i rest', decode (w :: rest) = .instr i rest') ∧
    (w = 0x08000000 → rest.length < 4 → decode (w :: rest) = .reject .truncatedLoadregs)

/-- The 41 rows of the opcode table are disjoint and their union is the legal words (the spec's own
claim, spec/COVERAGE.json item E3): a legal word belongs to one row and an illegal one to none, and an
operation's words belong to its row. -/
def Obligations.LegalWordsBelongToOneTableRow : Prop :=
  (∀ w : Word, (opcodeTable.filter (·.has w)).length = if illegalWord w then 0 else 1) ∧
  (∀ (w : Word) (rest : List Word) (i : Instr) (rest' : List Word),
    decode (w :: rest) = .instr i rest' → tableRow i ∈ opcodeTable ∧ (tableRow i).has w = true)

/-- The words of spec/30_encoding.md R91 decode to the operations they are given for, and its three
illegal words are rejected. -/
def Obligations.ExampleWordsDecodeAsTheSpecSays : Prop :=
  decode [0x04073E00] = .instr (.wrregR7 0x3E) [] ∧
  decode [0x04010100] = .instr (.wrregR1 0x01) [] ∧
  decode [0x010D0000] = .instr (.latch 13) [] ∧
  decode [0x02000E00] = .instr (.wrdata 0x0E) [] ∧
  decode [0x06000000] = .instr .clock [] ∧
  decode [0x07000000] = .instr .getsample [] ∧
  decode [0x0D011100] = .instr (.setovrB 17) [] ∧
  decode [0x0A000100] = .instr (.setfilter true) [] ∧
  decode [0x0F000000] = .instr .reset [] ∧
  decode [0x08000000, 0x03020100, 0x07060504, 0x0B0A0908, 0x0F0E0D0C]
    = .instr (.loadregs 0x03020100 0x07060504 0x0B0A0908 0x0F0E0D0C) [] ∧
  decode [0x06000001] = .reject (.illegal .reservedByte) ∧
  decode [0x10000000] = .reject (.illegal .reservedOp) ∧
  decode [0x0B030000] = .reject (.illegal .badChannel)

/-- The four words after LOADREGS are data whatever they are, and byte `j` of data word `k` is frame
byte `4k + j` (R83, R86; the spec's own decisions D8, D36). -/
def Obligations.LoadregsDataWordsAreFrameBytes : Prop :=
  ∀ (v : Vector Word 4) (rest : List Word),
    decode (0x08000000 :: v[0] :: v[1] :: v[2] :: v[3] :: rest)
      = .instr (.loadregs v[0] v[1] v[2] v[3]) rest ∧
    ∀ (k j : Fin 4), ∃ h : 4 * k.val + j.val < 16,
      ((frameOfWords v[0] v[1] v[2] v[3])[4 * k.val + j.val]'h).toNat
        = v[k].toNat / 2 ^ (8 * j.val) % 256

/-! ## Steps and runs -/

/-- A step performs the operation the front of the host's queue decodes to, with its words taken off
the queue. With nothing issued it leaves the state as it is, and words that are no operation are
refused under the decoder's reason. The queue is the model's form of issuing (log 5). -/
def Obligations.StepRunsTheDecodedOperation : Prop :=
  ∀ s : State, s.cfg.wf = true →
    (∀ i rest, decode s.pending = .instr i rest → step s = exec i { s with pending := rest }) ∧
    (∀ r, s.pending ≠ [] → decode s.pending = .reject r → step s = .refused (.rejected r)) ∧
    (s.pending = [] → step s = .next s)

/-- Every operation completes in every state (spec/60_exceptions.md R300). -/
def Obligations.EveryOperationCompletes : Prop :=
  ∀ (i : Instr) (s : State), ∃ t, exec i s = .next t

/-- No operation and no step changes the configuration (spec/70_reset_and_hazards.md R332, the spec's
own decision D40), and an operation leaves the words still to be performed alone: a later operation is
not touched by an earlier one (spec/20_memory.md R71). The queue of words is the model's own form of
issuing operations (log 5, DESIGN CHOICE). -/
def Obligations.ConfigurationIsNeverChanged : Prop :=
  (∀ s t, step s = .next t → t.cfg = s.cfg) ∧
  (∀ (i : Instr) (s t : State), exec i s = .next t → t.cfg = s.cfg ∧ t.pending = s.pending)

/-- The invariant of spec/10_state.md (`State.Inv`) is kept by every step. -/
def Obligations.InvariantKeptByEveryStep : Prop :=
  ∀ s t : State, s.Inv → step s = .next t → t.Inv

/-- The invariant holds at reset, and at the start of every instance built from a well-formed
configuration, whatever its draws. -/
def Obligations.InvariantHoldsAtReset : Prop :=
  State.reset.Inv ∧
  ∀ (cfg : Config) (d : ResetDraw), cfg.wf = true → (State.initial cfg d).Inv

/-- The invariant holds in every state the host can bring an instance to
(spec/70_reset_and_hazards.md R336). -/
def Obligations.InvariantHoldsInEveryReachableState : Prop :=
  ∀ s : State, Reachable s → s.Inv

/-- A step refuses exactly what is no operation (spec/30_encoding.md R86, R87, R95, the spec's own
decisions D8 and D9). With a well-formed configuration and `w` the first word issued: when `w` meets
one of the six items of R87 the step is refused as illegal, when `w` is a LOADREGS with fewer than
four words behind it as truncated, in no other case under either name, and any other operation
completes. The refusal is kept for the rest of the run, however many more steps are asked for. The
queue of words is the model's form of issuing (log 5), and the outcome `refused` its form of the
spec's mark (log 9). -/
def Obligations.StepRefusesExactlyWhatIsNoOperation : Prop :=
  ∀ (s : State) (w : Word) (rest : List Word) (op a d z : Nat) (illegal : Prop),
    s.cfg.wf = true → s.pending = w :: rest →
    op = w.toNat / 2 ^ 24 → a = w.toNat / 2 ^ 16 % 2 ^ 8 → d = w.toNat / 2 ^ 8 % 2 ^ 8 →
    z = w.toNat % 2 ^ 8 →
    (illegal ↔
      0x10 ≤ op ∨ z ≠ 0 ∨
      (op ∈ [0x00, 0x02, 0x03, 0x06, 0x07, 0x08, 0x09, 0x0A, 0x0C, 0x0F] ∧ a ≠ 0) ∨
      (op ∈ [0x00, 0x01, 0x03, 0x05, 0x06, 0x07, 0x08, 0x09, 0x0B, 0x0C, 0x0E, 0x0F] ∧ d ≠ 0) ∨
      (op ∈ [0x0B, 0x0D, 0x0E] ∧ 3 ≤ a) ∨ (op = 0x0A ∧ 2 ≤ d) ∨ (op = 0x0D ∧ 0x20 ≤ d)) →
    ((∃ r, step s = .refused (.rejected (.illegal r))) ↔ illegal) ∧
    (step s = .refused (.rejected .truncatedLoadregs) ↔ w = 0x08000000 ∧ rest.length < 4) ∧
    (¬ illegal → (w = 0x08000000 → 4 ≤ rest.length) → ∃ t, step s = .next t) ∧
    (illegal → ∃ r, ∀ n, Host.Core.run core (n + 1) s = .refused (Refusal.rejected (.illegal r))) ∧
    (w = 0x08000000 → rest.length < 4 →
      ∀ n, Host.Core.run core (n + 1) s = .refused (Refusal.rejected .truncatedLoadregs))

/-- Operations take effect in issue order (spec/20_memory.md R71): issuing further words changes
nothing about the operation at the front of the queue. The queue is the model's form of issuing
(log 5). -/
def Obligations.LaterOperationsDoNotAffectEarlierOnes : Prop :=
  ∀ (s t : State) (ws : List Word), s.pending ≠ [] → step s = .next t →
    step (hostIssue ws s) = .next (hostIssue ws t)

/-- Chip time passes only in CLOCK (spec/00_scope.md R4, spec/70_reset_and_hazards.md R340, R350): any
operation but CLOCK and RESET leaves the tone counters and edges, the noise counter, LFSR, parity and
mask, the rate and gate accumulators, the DC ring with its index and sum, the two FIR history values
and the sample as they are. The envelope position and counter, the deferred-reset flags and `FILT` are
not among them, because ENVTRIG, writes to R[13], TONERESET and SETFILTER write those. -/
def Obligations.OnlyClockAdvancesChipTime : Prop :=
  ∀ (i : Instr) (s t : State), i ≠ .clock → i ≠ .reset → exec i s = .next t →
    t.tc = s.tc ∧ t.te = s.te ∧ t.nc = s.nc ∧ t.lfsr = s.lfsr ∧ t.nh = s.nh ∧ t.nm = s.nm ∧
    t.acc = s.acc ∧ t.gate = s.gate ∧ t.dch = s.dch ∧ t.dci = s.dci ∧ t.dcs = s.dcs ∧
    t.fy1 = s.fy1 ∧ t.fy2 = s.fy2 ∧ t.sample = s.sample

/-- The envelope restarts only by a write to R[13] or by ENVTRIG (spec/42_envelope.md R154,
spec/70_reset_and_hazards.md R343): any other operation but CLOCK and RESET leaves its position and
counter as they are. -/
def Obligations.EnvelopeRestartsOnlyByShapeWriteOrTrigger : Prop :=
  ∀ (i : Instr) (s t : State), i.wf = true → i ≠ .clock → i ≠ .reset → exec i s = .next t →
    (t.epos = s.epos ∧ t.ec = s.ec) ∨
    (t.epos = -64 ∧ t.ec = 0 ∧
      (i = .envtrig ∨ (∃ d, i = .wrregR13 d) ∨ (∃ d, i = .wrdata d ∧ s.latch = 13) ∨
        (∃ v0 v1 v2 v3, i = .loadregs v0 v1 v2 v3 ∧ wordByte v3 1 ≠ 0xFF)))

/-- Who writes the register file and who writes `LATCH`: the register file changes only by WRREG at a
mapped address, WRDATA, LOADREGS and RESET; `LATCH` changes only by LATCH, RDREG and WRREG, to their
address (spec/10_state.md R26), and by RESET. -/
def Obligations.RegisterFileAndLatchHaveNoOtherWriter : Prop :=
  ∀ (i : Instr) (s t : State), i.wf = true → exec i s = .next t →
    (t.regs ≠ s.regs →
      (∃ (k : Fin 16) (d : Byte), encode i = [opWord 0x04 (BitVec.ofNat 8 k.val) d]) ∨
      (∃ d, i = .wrdata d) ∨ (∃ v0 v1 v2 v3, i = .loadregs v0 v1 v2 v3) ∨ i = .reset) ∧
    (t.latch ≠ s.latch →
      i = .latch t.latch ∨ i = .rdreg t.latch ∨ (∃ d, encode i = [opWord 0x04 t.latch d]) ∨
      i = .reset)

/-- What the host sees depends on the visible state alone (spec/10_state.md R39): two states that agree
on the register file, `LATCH`, `SAMPLE`, the results so far and the supply of read draws hand back the
same results under every operation, whatever their hidden state. The list of results and the supply of
draws are the model's own fields (log 3, 4, 6). -/
def Obligations.HiddenStateIsNotObservable : Prop :=
  ∀ (i : Instr) (s₁ s₂ t₁ t₂ : State),
    s₁.regs = s₂.regs → s₁.latch = s₂.latch → s₁.sample = s₂.sample → s₁.results = s₂.results →
    s₁.fixedReads = s₂.fixedReads → s₁.drawn = s₂.drawn →
    exec i s₁ = .next t₁ → exec i s₂ = .next t₂ → t₁.results = t₂.results

/-- A deferred tone reset waits for CLOCK (spec/40_tone.md R113, the spec's own decision D28): no
operation but CLOCK and RESET clears a pending flag, and CLOCK clears all three. -/
def Obligations.DeferredToneResetWaitsForClock : Prop :=
  (∀ (i : Instr) (s t : State) (ch : Channel), i ≠ .clock → i ≠ .reset → exec i s = .next t →
    s.tr.get ch = true → t.tr.get ch = true) ∧
  (∀ (s t : State) (ch : Channel), exec .clock s = .next t → t.tr.get ch = false)

/-- An instance is built only from a well-formed configuration, which is never clamped
(spec/00_scope.md R7, spec/46_control_ops.md R278, the spec's own decision D11): each range of R6
that fails makes construction refuse. A well-formed one is built as it is given, in the state of
spec/10_state.md R38 under its draws (the spec's own decisions D15, D16, D33), with nothing issued and
nothing handed back; and that is the state RESET gives under the same draws, but for the host port,
which RESET leaves. `State.reset` is such an instance, of the default configuration, with one draw
taken. The host port is the model's own (log 2 to 6), and so is the configuration of `State.reset`
(log 1). -/
def Obligations.ConstructionGivesTheResetStateOrRefuses : Prop :=
  (∀ (cfg : Config) (d : ResetDraw),
    ((cfg.masterClock < 8 ∨ cfg.hostRate = 0 ∨ cfg.internalRate < cfg.hostRate ∨
        (∃ i : Level, 65535 < lvlAt cfg i) ∨ cfg.dcWindow = 0 ∨ cfg.outScale = 0) →
      construct cfg d = .refused .illFormedConfig) ∧
    (8 ≤ cfg.masterClock → 1 ≤ cfg.hostRate → cfg.hostRate ≤ cfg.internalRate →
      (∀ i : Level, lvlAt cfg i ≤ 65535) → 1 ≤ cfg.dcWindow → 1 ≤ cfg.outScale →
      d.seed ≠ 0 ∧ (∀ ch, d.edge ch = 0x00 ∨ d.edge ch = 0x1F) ∧
      ∃ s, construct cfg d = .next s ∧
        s =
          { regs := Vector.replicate 16 0x00
            latch := 0
            tc := ⟨0, 0, 0⟩
            te := d.edge .c ++ d.edge .b ++ d.edge .a
            tr := ⟨false, false, false⟩
            nc := 0
            lfsr := d.seed
            nh := false
            nm := 0x0000
            ec := 0
            epos := -64
            acc := 0
            gate := 0
            dch := List.replicate cfg.dcWindow 0
            dci := 0
            dcs := 0
            fy1 := 0
            fy2 := 0
            filt := cfg.filterAtReset
            ovr := ⟨none, none, none⟩
            sample := 0x00000000
            cfg := cfg
            pending := []
            results := []
            fixedResets := []
            fixedReads := []
            drawn := 0 } ∧
        ∀ (u : State) (ds : List ResetDraw), u.cfg = cfg → u.fixedResets = d :: ds →
          exec .reset u = .next
            { s with
              pending := u.pending
              results := u.results
              fixedResets := ds
              fixedReads := u.fixedReads
              drawn := u.drawn })) ∧
  ∃ d s, construct Config.default d = .next s ∧ State.reset = { s with drawn := 1 }

/-! ## Register access (spec/45_register_access.md) -/

/-- LATCH writes `LATCH` and nothing else, at every address (R231, the spec's own decision D5). -/
def Obligations.LatchSelectsTheAddress : Prop :=
  ∀ (a : Byte) (s : State), exec (.latch a) s = .next { s with latch := a }

/-- WRDATA writes the selected register masked, restarts the envelope when that is R[13], and is
ignored when `LATCH` is 16 or more (R232, the spec's own decision D5). -/
def Obligations.WrdataWritesTheSelectedRegister : Prop :=
  ∀ (d : Byte) (s : State),
    (∀ i : Fin 16, s.latch.toNat = i.val → i ≠ 13 →
      exec (.wrdata d) s = .next { s with regs := s.regs.set i (d &&& regMask[i]) }) ∧
    (s.latch.toNat = 13 →
      exec (.wrdata d) s
        = .next { s with regs := s.regs.set 13 (d &&& 0x0F), epos := -64, ec := 0 }) ∧
    (16 ≤ s.latch.toNat → exec (.wrdata d) s = .next s)

/-- RDDATA returns the selected register and changes nothing else. With `LATCH` of 16 or more it
returns the draw `OOR_READ` (R230, R233, the spec's own decisions D5, D6, D41): the byte the host has
fixed (spec/70_reset_and_hazards.md R336), else some byte. The host port is the model's own: that
fixed bytes are used oldest first (log 3), that a free draw advances the counter (log 4) and that the
byte is appended to the results (log 6). -/
def Obligations.RddataReturnsTheSelectedRegister : Prop :=
  ∀ s : State,
    (∀ i : Fin 16, s.latch.toNat = i.val →
      exec .rddata s = .next { s with results := s.results ++ [.byte (s.reg i)] }) ∧
    (∀ v vs, 16 ≤ s.latch.toNat → s.fixedReads = v :: vs →
      exec .rddata s = .next { s with results := s.results ++ [.byte v], fixedReads := vs }) ∧
    (16 ≤ s.latch.toNat → s.fixedReads = [] →
      ∃ v, exec .rddata s
        = .next { s with results := s.results ++ [.byte v], drawn := s.drawn + 1 })

/-- RDREG sets `LATCH` and returns the register; at 16 or more it returns the draw `OOR_READ` (R230,
R235, the spec's own decisions D5, D6, D41): the byte the host has fixed
(spec/70_reset_and_hazards.md R336), else some byte. The host port is the model's own: that fixed
bytes are used oldest first (log 3), that a free draw advances the counter (log 4) and that the byte
is appended to the results (log 6). -/
def Obligations.RdregReturnsTheNamedRegister : Prop :=
  ∀ (a : Byte) (s : State),
    (∀ i : Fin 16, a.toNat = i.val →
      exec (.rdreg a) s
        = .next { s with latch := a, results := s.results ++ [.byte (s.reg i)] }) ∧
    (∀ v vs, 16 ≤ a.toNat → s.fixedReads = v :: vs →
      exec (.rdreg a) s
        = .next { s with latch := a, results := s.results ++ [.byte v], fixedReads := vs }) ∧
    (16 ≤ a.toNat → s.fixedReads = [] →
      ∃ v, exec (.rdreg a) s
        = .next { s with latch := a, results := s.results ++ [.byte v], drawn := s.drawn + 1 })

/-- WRREG to every register but R[13] sets `LATCH`, stores the byte masked to the register's width and
does nothing else (R234, R236, R240 to R244, R246; the masks of spec/10_state.md R21, decision D3). -/
def Obligations.WrregStoresTheMaskedByte : Prop :=
  ∀ (d : Byte) (s : State),
    exec (.wrregR0 d) s = .next { s with latch := 0, regs := s.regs.set 0 (d &&& 0xFF) } ∧
    exec (.wrregR1 d) s = .next { s with latch := 1, regs := s.regs.set 1 (d &&& 0x0F) } ∧
    exec (.wrregR2 d) s = .next { s with latch := 2, regs := s.regs.set 2 (d &&& 0xFF) } ∧
    exec (.wrregR3 d) s = .next { s with latch := 3, regs := s.regs.set 3 (d &&& 0x0F) } ∧
    exec (.wrregR4 d) s = .next { s with latch := 4, regs := s.regs.set 4 (d &&& 0xFF) } ∧
    exec (.wrregR5 d) s = .next { s with latch := 5, regs := s.regs.set 5 (d &&& 0x0F) } ∧
    exec (.wrregR6 d) s = .next { s with latch := 6, regs := s.regs.set 6 (d &&& 0x1F) } ∧
    exec (.wrregR7 d) s = .next { s with latch := 7, regs := s.regs.set 7 (d &&& 0xFF) } ∧
    exec (.wrregR8 d) s = .next { s with latch := 8, regs := s.regs.set 8 (d &&& 0x1F) } ∧
    exec (.wrregR9 d) s = .next { s with latch := 9, regs := s.regs.set 9 (d &&& 0x1F) } ∧
    exec (.wrregR10 d) s = .next { s with latch := 10, regs := s.regs.set 10 (d &&& 0x1F) } ∧
    exec (.wrregR11 d) s = .next { s with latch := 11, regs := s.regs.set 11 (d &&& 0xFF) } ∧
    exec (.wrregR12 d) s = .next { s with latch := 12, regs := s.regs.set 12 (d &&& 0xFF) } ∧
    exec (.wrregR14 d) s = .next { s with latch := 14, regs := s.regs.set 14 (d &&& 0xFF) } ∧
    exec (.wrregR15 d) s = .next { s with latch := 15, regs := s.regs.set 15 (d &&& 0xFF) }

/-- A write to R[13] stores the low four bits, takes the pattern offset of the code and restarts the
envelope, whatever was there and whatever is written, 0xFF among it; both by WRREG and by WRDATA
(R245). The offset map is the spec's own decision D18, and that WRREG sets `LATCH` too is its decision
D5. -/
def Obligations.ShapeWriteRestartsTheEnvelope : Prop :=
  ∀ (d : Byte) (s : State),
    (∃ t, exec (.wrregR13 d) s = .next t ∧
      t = { s with latch := 13, regs := s.regs.set 13 (d &&& 0x0F), epos := -64, ec := 0 } ∧
      t.eoff = 128 * (if d.toNat % 16 < 4 then 0 else if d.toNat % 16 < 8 then 1
        else d.toNat % 16 - 6)) ∧
    (s.latch = 13 → ∃ t, exec (.wrdata d) s = .next t ∧
      t = { s with regs := s.regs.set 13 (d &&& 0x0F), epos := -64, ec := 0 } ∧
      t.eoff = 128 * (if d.toNat % 16 < 4 then 0 else if d.toNat % 16 < 8 then 1
        else d.toNat % 16 - 6))

/-- A write to an address of 16..255 changes nothing but the `LATCH` that WRREG itself sets, in each of
the opcode table's four rows, and nothing at all by WRDATA (R248). -/
def Obligations.OutOfRangeWriteIsIgnored : Prop :=
  ∀ (a d : Byte) (s : State),
    (128 ≤ a.toNat → exec (.wrregOor128 a d) s = .next { s with latch := a }) ∧
    (64 ≤ a.toNat → a.toNat < 128 → exec (.wrregOor64 a d) s = .next { s with latch := a }) ∧
    (32 ≤ a.toNat → a.toNat < 64 → exec (.wrregOor32 a d) s = .next { s with latch := a }) ∧
    (16 ≤ a.toNat → a.toNat < 32 → exec (.wrregOor16 a d) s = .next { s with latch := a }) ∧
    (16 ≤ s.latch.toNat → exec (.wrdata d) s = .next s)

/-- LOADREGS writes every byte of the frame masked, in one operation; byte 13 of 0xFF leaves R[13] and
the envelope alone, and any other byte 13 restarts the envelope; `LATCH` and everything else stay
(R250, the spec's own decision D31). -/
def Obligations.LoadregsWritesTheWholeFrame : Prop :=
  ∀ (v0 v1 v2 v3 : Word) (s : State),
    exec (.loadregs v0 v1 v2 v3) s = .next
      { s with
        regs := Vector.ofFn fun i : Fin 16 =>
          if i = 13 ∧ wordByte v3 1 = 0xFF then s.reg i
          else (frameOfWords v0 v1 v2 v3)[i] &&& regMask[i]
        epos := if wordByte v3 1 = 0xFF then s.epos else -64
        ec := if wordByte v3 1 = 0xFF then s.ec else 0 }

/-- GETSAMPLE returns `SAMPLE`, DUMPREGS returns the sixteen registers, and neither changes anything
else (R216, R251, the spec's own decisions D27, D32, D41). The list the results are appended to is the
model's own (log 6). -/
def Obligations.GetsampleAndDumpregsOnlyRead : Prop :=
  ∀ s : State,
    exec .getsample s = .next { s with results := s.results ++ [.sample s.sample] } ∧
    exec .dumpregs s = .next { s with results := s.results ++ [.frame s.regs] }

/-- Loading back what DUMPREGS returned leaves the whole state as the dump left it, but for the
envelope, which restarts (R252, the spec's own derivation). The premise that every register is inside
its mask is part of the invariant, and the list of results is the model's own (log 6). -/
def Obligations.DumpThenLoadRestartsOnlyTheEnvelope : Prop :=
  ∀ (s : State) (v0 v1 v2 v3 : Word), (∀ i : Fin 16, s.reg i &&& ~~~regMask[i] = 0) →
    frameOfWords v0 v1 v2 v3 = s.regs →
    ∃ t, exec .dumpregs s = .next t ∧ t.results = s.results ++ [.frame s.regs] ∧
      exec (.loadregs v0 v1 v2 v3) t = .next { t with epos := -64, ec := 0 }

/-- Writing R[6] sets the noise period to the low five bits and leaves the noise generator as it is
(R241). Writing R[7] recomputes both enable masks from its low six bits, a set bit disabling its
source, and its top bits are stored with no effect on them (R242). That the generator is left alone and
that R[7] keeps eight bits are the spec's own decisions D38 and D3. -/
def Obligations.NoiseAndMixerWritesRecomputeTheirValues : Prop :=
  ∀ (d : Byte) (s : State),
    (∃ t, exec (.wrregR6 d) s = .next t ∧ t.np.toNat = d.toNat % 32 ∧
      t.nc = s.nc ∧ t.lfsr = s.lfsr ∧ t.nh = s.nh ∧ t.nm = s.nm) ∧
    (∃ t, exec (.wrregR7 d) s = .next t ∧ t.reg 7 = d ∧
      ∀ ch : Channel,
        fieldOf t.tem ch = (if d.getLsbD ch.index then 0x1F else 0x00) ∧
        fieldOf t.nem ch = (if d.getLsbD (3 + ch.index) then 0x1F else 0x00))

/-- A period write takes effect at once, one byte at a time, with the less significant byte at the
lower address, and resets no counter (R240, R244, spec/20_memory.md R63, R65, the spec's own decisions
D4, D38). -/
def Obligations.PeriodWritesTakeEffectByteByByte : Prop :=
  ∀ (d : Byte) (s : State),
    (∃ t, exec (.wrregR0 d) s = .next t ∧ t.tc = s.tc ∧ t.te = s.te ∧
      (t.tp .a).toNat = 256 * ((s.reg 1).toNat % 16) + d.toNat) ∧
    (∃ t, exec (.wrregR1 d) s = .next t ∧ t.tc = s.tc ∧ t.te = s.te ∧
      (t.tp .a).toNat = 256 * (d.toNat % 16) + (s.reg 0).toNat) ∧
    (∃ t, exec (.wrregR2 d) s = .next t ∧ t.tc = s.tc ∧ t.te = s.te ∧
      (t.tp .b).toNat = 256 * ((s.reg 3).toNat % 16) + d.toNat) ∧
    (∃ t, exec (.wrregR3 d) s = .next t ∧ t.tc = s.tc ∧ t.te = s.te ∧
      (t.tp .b).toNat = 256 * (d.toNat % 16) + (s.reg 2).toNat) ∧
    (∃ t, exec (.wrregR4 d) s = .next t ∧ t.tc = s.tc ∧ t.te = s.te ∧
      (t.tp .c).toNat = 256 * ((s.reg 5).toNat % 16) + d.toNat) ∧
    (∃ t, exec (.wrregR5 d) s = .next t ∧ t.tc = s.tc ∧ t.te = s.te ∧
      (t.tp .c).toNat = 256 * (d.toNat % 16) + (s.reg 4).toNat) ∧
    (∃ t, exec (.wrregR11 d) s = .next t ∧ t.ec = s.ec ∧ t.epos = s.epos ∧
      t.ep.toNat = 256 * (s.reg 12).toNat + d.toNat) ∧
    (∃ t, exec (.wrregR12 d) s = .next t ∧ t.ec = s.ec ∧ t.epos = s.epos ∧
      t.ep.toNat = 256 * d.toNat + (s.reg 11).toNat)

/-- The pseudo-instruction `settone c, p` sets the tone period of the channel to p, and is an assembly
error above 4095 (spec/30_encoding.md R90, the spec's own decision D8). -/
def Obligations.SettoneSetsTheTonePeriod : Prop :=
  ∀ (ch : Channel) (p : Nat),
    (p ≤ 4095 → ∃ i j, (Pseudo.settone ch p).expand = some [i, j] ∧
      ∀ s, ∃ t u, exec i s = .next t ∧ exec j t = .next u ∧ (u.tp ch).toNat = p) ∧
    (4095 < p → (Pseudo.settone ch p).expand = none)

/-! ## Control operations (spec/46_control_ops.md) -/

/-- NOP changes nothing (R277, the spec's own decision D8). -/
def Obligations.NopChangesNothing : Prop := ∀ s : State, exec .nop s = .next s

/-- SETFILTER writes `FILT` and nothing else: the filter history survives the toggle (R270). -/
def Obligations.SetfilterKeepsTheHistory : Prop :=
  ∀ (on : Bool) (s : State), exec (.setfilter on) s = .next { s with filt := on }

/-- TONERESET sets its channel's deferred-reset flag and nothing else (R272, the spec's own decision
D28). -/
def Obligations.ToneresetOnlySetsTheFlag : Prop :=
  ∀ s : State,
    exec .toneresetA s = .next { s with tr := { s.tr with a := true } } ∧
    exec .toneresetB s = .next { s with tr := { s.tr with b := true } } ∧
    exec .toneresetC s = .next { s with tr := { s.tr with c := true } }

/-- ENVTRIG restarts the envelope and changes nothing else (R273, the spec's own decision D30). -/
def Obligations.EnvtrigRestartsTheEnvelope : Prop :=
  ∀ s : State, exec .envtrig s = .next { s with epos := -64, ec := 0 }

/-- SETOVR puts a level in its channel's override and CLROVR takes it out, and neither changes anything
else (R274, R275, the spec's own decision D29). -/
def Obligations.OverridesAreSetAndCleared : Prop :=
  ∀ (l : Level) (s : State),
    exec (.setovrA l) s = .next { s with ovr := { s.ovr with a := some l } } ∧
    exec (.setovrB l) s = .next { s with ovr := { s.ovr with b := some l } } ∧
    exec (.setovrC l) s = .next { s with ovr := { s.ovr with c := some l } } ∧
    exec .clrovrA s = .next { s with ovr := { s.ovr with a := none } } ∧
    exec .clrovrB s = .next { s with ovr := { s.ovr with b := none } } ∧
    exec .clrovrC s = .next { s with ovr := { s.ovr with c := none } }

/-- RESET gives every state variable its value of spec/10_state.md R38, under the draw the host has
fixed (spec/70_reset_and_hazards.md R336) or else a free one, and leaves the configuration (R276,
R332, the spec's own decisions D15, D16, D33, D40). The seed is never 0 and every initial edge field
is 0x00 or 0x1F. The host port is the model's own: that fixed draws are used oldest first (log 2),
that a free draw advances the counter and RESET does not rewind it (log 4), and that the queue of
words (log 5) and the results (log 6) stay. -/
def Obligations.ResetReachesTheResetState : Prop :=
  ∀ s : State, ∃ (d : ResetDraw) (ds : List ResetDraw) (n : Nat),
    ((s.fixedResets = d :: ds ∧ n = s.drawn) ∨
      (s.fixedResets = [] ∧ ds = [] ∧ n = s.drawn + 1)) ∧
    d.seed ≠ 0 ∧ (∀ ch, d.edge ch = 0x00 ∨ d.edge ch = 0x1F) ∧
    exec .reset s = .next
      { regs := Vector.replicate 16 0x00
        latch := 0
        tc := ⟨0, 0, 0⟩
        te := d.edge .c ++ d.edge .b ++ d.edge .a
        tr := ⟨false, false, false⟩
        nc := 0
        lfsr := d.seed
        nh := false
        nm := 0x0000
        ec := 0
        epos := -64
        acc := 0
        gate := 0
        dch := List.replicate s.cfg.dcWindow 0
        dci := 0
        dcs := 0
        fy1 := 0
        fy2 := 0
        filt := s.cfg.filterAtReset
        ovr := ⟨none, none, none⟩
        sample := 0x00000000
        cfg := s.cfg
        pending := s.pending
        results := s.results
        fixedResets := ds
        fixedReads := s.fixedReads
        drawn := n }

/-! ## Generators (spec/40_tone.md, spec/41_noise.md, spec/42_envelope.md) -/

/-- The tone tick, on every channel (R110): the counter counts up, and when it reaches the period the
edge field toggles and the counter restarts. -/
def Obligations.ToneTickCountsAndToggles : Prop :=
  ∀ (s : State) (ch : Channel),
    ((s.tp ch).toNat ≤ s.tc.get ch + 1 →
      (tick s).tc.get ch = 0 ∧ fieldOf (tick s).te ch = fieldOf s.te ch ^^^ 0x1F) ∧
    (s.tc.get ch + 1 < (s.tp ch).toNat →
      (tick s).tc.get ch = s.tc.get ch + 1 ∧ fieldOf (tick s).te ch = fieldOf s.te ch)

/-- The noise tick (R130, R131, the spec's own decisions D13, D14): the parity toggles, and on the half
where it becomes 1 the counter counts against `max(NP, 1)`; when it reaches it, the LFSR shifts in
Galois form, the mask takes the ejected bit and the counter restarts. -/
def Obligations.NoiseTickShiftsOnTheActiveHalf : Prop :=
  ∀ s : State,
    (s.nh = true → (tick s).nh = false ∧ (tick s).nc = s.nc ∧ (tick s).lfsr = s.lfsr ∧
      (tick s).nm = s.nm) ∧
    (s.nh = false → (tick s).nh = true ∧
      (max s.np.toNat 1 ≤ s.nc + 1 →
        (tick s).nc = 0 ∧
        (tick s).lfsr = (s.lfsr >>> 1) ^^^ (if s.lfsr.getLsbD 0 then 0x12000#17 else 0#17) ∧
        (tick s).nm = (if s.lfsr.getLsbD 0 then 0x7FFF#15 else 0#15)) ∧
      (s.nc + 1 < max s.np.toNat 1 →
        (tick s).nc = s.nc + 1 ∧ (tick s).lfsr = s.lfsr ∧ (tick s).nm = s.nm))

/-- The envelope tick (R150): the counter counts against the period, and when it reaches it the position
advances by one and, once it exceeds 0, is wrapped into 0..63. -/
def Obligations.EnvelopeTickAdvancesAndWraps : Prop :=
  ∀ s : State,
    (s.ep.toNat ≤ s.ec + 1 → (tick s).ec = 0 ∧
      (s.epos + 1 ≤ 0 → (tick s).epos = s.epos + 1) ∧
      (0 < s.epos + 1 → ∃ q : Int, s.epos + 1 = 64 * q + (tick s).epos ∧
        0 ≤ (tick s).epos ∧ (tick s).epos ≤ 63)) ∧
    (s.ec + 1 < s.ep.toNat → (tick s).ec = s.ec + 1 ∧ (tick s).epos = s.epos)

/-- A tick ORs into `GATE` the gate mask `(TE OR TEM) AND (NM OR NEM)` of the state its generator steps
leave (spec/43_mixer_output.md R180, R181), and changes no field but `GATE` and the generators' own
(spec/44_clock_divider.md R213). What the generator steps do to their fields is stated in
`ToneTickCountsAndToggles`, `NoiseTickShiftsOnTheActiveHalf` and `EnvelopeTickAdvancesAndWraps`. -/
def Obligations.TickAccumulatesTheNewGateMask : Prop :=
  ∀ s : State,
    tick s =
      { s with
        tc := (tick s).tc
        te := (tick s).te
        nc := (tick s).nc
        lfsr := (tick s).lfsr
        nh := (tick s).nh
        nm := (tick s).nm
        ec := (tick s).ec
        epos := (tick s).epos
        gate := s.gate ||| (((tick s).te ||| s.tem) &&& ((tick s).nm ||| s.nem)) }

/-- A channel's gate on a tick, by its two mixer bits (spec/43_mixer_output.md R182, the spec's own
derivation). The premises are part of the invariant. -/
def Obligations.GateFollowsTheMixerBits : Prop :=
  ∀ (s : State) (ch : Channel),
    (fieldOf s.te ch = 0x00 ∨ fieldOf s.te ch = 0x1F) → (s.nm = 0x0000 ∨ s.nm = 0x7FFF) →
    fieldOf s.gateMask ch =
      (if ((s.reg 7).getLsbD ch.index = true ∨ fieldOf s.te ch = 0x1F) ∧
          ((s.reg 7).getLsbD (3 + ch.index) = true ∨ s.nm = 0x7FFF) then 0x1F else 0x00)

/-- From a counter at 0, n ticks toggle the edge field once every max(TP, 1) ticks
(spec/40_tone.md R114, the spec's own derivation). -/
def Obligations.ToneTogglesOncePerPeriod : Prop :=
  ∀ (s : State) (ch : Channel) (n : Nat), s.tc.get ch = 0 →
    (tick^[n] s).tc.get ch = n % max (s.tp ch).toNat 1 ∧
    fieldOf (tick^[n] s).te ch =
      (if n / max (s.tp ch).toNat 1 % 2 = 1 then fieldOf s.te ch ^^^ 0x1F else fieldOf s.te ch)

/-- From a counter and a parity at 0, n ticks shift the LFSR once every 2·max(NP, 1) ticks, the first
tick being active (spec/41_noise.md R131, R135, the spec's own derivation). -/
def Obligations.NoiseShiftsOncePerTwoPeriods : Prop :=
  ∀ (s : State) (n : Nat), s.nc = 0 → s.nh = false →
    (tick^[n] s).lfsr = lfsrStep^[(n + 1) / 2 / max s.np.toNat 1] s.lfsr ∧
    (tick^[n] s).nc = (n + 1) / 2 % max s.np.toNat 1 ∧
    (tick^[n] s).nh = decide (n % 2 = 1)

/-- From any non-zero seed the LFSR visits every non-zero state: its period is exactly 2^17 − 1
(spec/41_noise.md R132, the spec's own derivation). -/
def Obligations.LfsrHasFullPeriod : Prop :=
  ∀ v : BitVec 17, v ≠ 0 →
    lfsrStep^[131071] v = v ∧ ∀ k, 0 < k → k < 131071 → lfsrStep^[k] v ≠ v

/-- From a restart, the envelope position after n ticks: with k = n / max(EP, 1) steps it is k − 64 for
k ≤ 63, and then runs through 0..63 again and again (spec/42_envelope.md R155, R158, the spec's own
derivation). -/
def Obligations.EnvelopePlaysOnceThenLoops : Prop :=
  ∀ (s : State) (n : Nat), s.epos = -64 → s.ec = 0 →
    (tick^[n] s).ec = n % max s.ep.toNat 1 ∧
    (tick^[n] s).epos =
      (if n / max s.ep.toNat 1 < 64 then ((n / max s.ep.toNat 1 : Nat) : Int) - 64
       else (((n / max s.ep.toNat 1 - 64) % 64 : Nat) : Int))

/-- The table of ten patterns with its code map draws the shapes the conventional bits of R[13] name
(spec/42_envelope.md R152, R153, spec/10_state.md R24; general knowledge the spec marks as its own,
log 7): [3] CONT, [2] ATT, [1] ALT, [0] HOLD. In block j, at entry k: the first ramp rises with ATT and
falls without; then without CONT it stays at 0, with HOLD at 31 or 0, and else the ramps go on,
reversed in every second block with ALT. -/
def Obligations.EnvelopeTableDrawsTheShapeBits : Prop :=
  ∀ (s : State) (j k : Nat) (cont att alt hold : Bool), j < 4 → k < 32 →
    s.epos = 32 * (j : Int) + (k : Int) - 64 →
    (s.reg 13).getLsbD 3 = cont → (s.reg 13).getLsbD 2 = att → (s.reg 13).getLsbD 1 = alt →
    (s.reg 13).getLsbD 0 = hold →
    s.envLevel.toNat =
      (if j = 0 then (if att then k else 31 - k)
       else if cont = false then 0
       else if hold then (if att ≠ alt then 31 else 0)
       else if att = (alt && decide (j % 2 = 1)) then 31 - k else k)

/-! ## Mixer and output (spec/43_mixer_output.md) -/

/-- The level of a channel is its override, else the envelope level, else twice the fixed level
(R183, R184, the spec's own decision D29); an open gate keeps it and a closed one gives index 0 (R185,
decision D21); the table value is halved where the tone period is 0 or 1 (R187, decision D20). -/
def Obligations.LevelsAreSelectedGatedAndHalved : Prop :=
  ∀ (s : State) (ch : Channel),
    (∀ l, s.ovr.get ch = some l → s.level5 ch = l) ∧
    (s.ovr.get ch = none → (s.reg (ampIndex ch)).getLsbD 4 = true → s.level5 ch = s.envLevel) ∧
    (s.ovr.get ch = none → (s.reg (ampIndex ch)).getLsbD 4 = false →
      (s.level5 ch).toNat = 2 * ((s.reg (ampIndex ch)).toNat % 16)) ∧
    (∀ l : Level, (fieldOf s.gate ch = 0x1F ∧ l = s.level5 ch) ∨ (fieldOf s.gate ch = 0 ∧ l = 0) →
      (2 ≤ (s.tp ch).toNat → s.amplitude ch = lvlAt s.cfg l) ∧
      ((s.tp ch).toNat ≤ 1 → s.amplitude ch = lvlAt s.cfg l / 2))

/-- No mixed sum exceeds three times the largest table entry (R190, the spec's own derivation). -/
def Obligations.MixedSumIsBounded : Prop :=
  ∀ (s : State) (m : Nat), (∀ i : Level, lvlAt s.cfg i ≤ m) → s.mixedSum ≤ 3 * m

/-- Mix sums the three channel amplitudes (R189), takes the moving average off, filters, selects the
filtered value where `FILT` is set and the unfiltered one else (R193), and writes the filters and
`SAMPLE` only. The averages round down, as the spec decides (R191, R192, decisions D23, D24): they are
given here as floors of exact rationals. How an output becomes `SAMPLE` (decision D26) is stated in
`SampleIsTheNearestBinary32`. -/
def Obligations.MixComputesOneSample : Prop :=
  ∀ (s : State) (x : Nat) (sum y z : Int),
    x = s.amplitude .a + s.amplitude .b + s.amplitude .c →
    sum = s.dcs - (s.dch.getD s.dci 0 : Nat) + x →
    y = x - ⌊(sum : ℚ) / (s.cfg.dcWindow : ℚ)⌋ →
    z = ⌊((s.fy2 : ℚ) + 2 * (s.fy1 : ℚ) + (y : ℚ)) / 4⌋ →
    mix s =
      { s with
        dcs := sum
        dch := s.dch.set s.dci x
        dci := (s.dci + 1) % s.cfg.dcWindow
        fy2 := s.fy1
        fy1 := y
        sample := sampleOf (if s.filt then z else y) s.cfg.outScale }

/-- A constant mixed sum fades out: from an empty ring, the n-th sample of a constant K is
K − ⌊min(n, W)·K / W⌋, so it is 0 from the W-th on (R197, the spec's own derivation). -/
def Obligations.ConstantInputFadesToZero : Prop :=
  ∀ (s : State) (k n : Nat), 1 ≤ s.cfg.dcWindow → s.dch = List.replicate s.cfg.dcWindow 0 →
    s.dci < s.cfg.dcWindow → s.dcs = 0 → 1 ≤ n →
    dcRemoved k ((dcUpdate k)^[n] s)
      = (k : Int) - ((min n s.cfg.dcWindow * k / s.cfg.dcWindow : Nat) : Int)

/-- `SAMPLE` is the binary32 value nearest to clamp(out)/OUT_SCALE, ties to even, with the sign of the
output (R194, the spec's own decision D26): no finite binary32 magnitude lies nearer to the quotient,
and where another lies as near, the last bit is 0. The sign of a zero that a negative quotient rounds
to is free (log 14). -/
def Obligations.SampleIsTheNearestBinary32 : Prop :=
  ∀ (out : Int) (scale : Nat), 1 ≤ scale →
    let c := clampInt out (-scale) scale
    let b := (sampleOf out scale).toNat % 2 ^ 31
    b ≤ 0x3F800000 ∧
    (∀ b' : Nat, b' < 0x7F800000 →
      binary32Error c.natAbs scale b ≤ binary32Error c.natAbs scale b' ∧
      (binary32Error c.natAbs scale b = binary32Error c.natAbs scale b' → b ≠ b' → b % 2 = 0)) ∧
    (0 ≤ out → (sampleOf out scale).toNat < 2 ^ 31) ∧
    (out < 0 → b ≠ 0 → 2 ^ 31 ≤ (sampleOf out scale).toNat)

/-- The ends of the range (R194, the spec's own decision D26): 0 gives +0.0, and everything from
OUT_SCALE up gives 1.0 and from −OUT_SCALE down gives −1.0. -/
def Obligations.SampleClampsAtFullScale : Prop :=
  ∀ (out : Int) (scale : Nat), 1 ≤ scale →
    (out = 0 → sampleOf out scale = 0x00000000) ∧
    ((scale : Int) ≤ out → sampleOf out scale = 0x3F800000) ∧
    (out ≤ -(scale : Int) → sampleOf out scale = 0xBF800000)

/-! ## CLOCK (spec/44_clock_divider.md) -/

/-- CLOCK (R212, R214): the deferred resets first (the spec's own decision D28); then ticks, each adding
`HOST_RATE` to `ACC`, at least one and no more than it takes to reach `INTERNAL_RATE`, which is then
subtracted; then Mix; then `GATE` is cleared. -/
def Obligations.ClockTicksUntilTheSampleBoundary : Prop :=
  ∀ s : State, s.cfg.wf = true → ∃ n : Nat, 1 ≤ n ∧
    s.cfg.internalRate ≤ s.acc + n * s.cfg.hostRate ∧
    (∀ m, 1 ≤ m → m < n → s.acc + m * s.cfg.hostRate < s.cfg.internalRate) ∧
    exec .clock s = .next
      { mix
          { tick^[n]
              { s with
                tc := ⟨if s.tr.a then 0 else s.tc.a, if s.tr.b then 0 else s.tc.b,
                  if s.tr.c then 0 else s.tc.c⟩
                tr := ⟨false, false, false⟩ } with
            acc := s.acc + n * s.cfg.hostRate - s.cfg.internalRate } with
        gate := 0 }

/-- From `ACC` = 0, n CLOCKs run exactly T(n) = ⌈n·INTERNAL_RATE / HOST_RATE⌉ ticks, and the accumulator
keeps the exact remainder, so the sample count never drifts (R215, the spec's own derivation). Deferred
tone resets are resolved before the first of those ticks (spec/40_tone.md R113, the spec's own decision
D28). -/
def Obligations.ClocksRunExactlyTheCeilingOfTicks : Prop :=
  ∀ (s u : State) (n T : Nat), s.cfg.wf = true → s.acc = 0 →
    T = (n * s.cfg.internalRate + s.cfg.hostRate - 1) / s.cfg.hostRate →
    u = { s with
      tc := ⟨if 1 ≤ n ∧ s.tr.a then 0 else s.tc.a, if 1 ≤ n ∧ s.tr.b then 0 else s.tc.b,
        if 1 ≤ n ∧ s.tr.c then 0 else s.tc.c⟩ } →
    ∃ t, execTimes .clock n s = .next t ∧
      t.acc + n * s.cfg.internalRate = T * s.cfg.hostRate ∧
      t.tc = (tick^[T] u).tc ∧ t.te = (tick^[T] u).te ∧ t.nc = (tick^[T] u).nc ∧
      t.lfsr = (tick^[T] u).lfsr ∧ t.nh = (tick^[T] u).nh ∧ t.nm = (tick^[T] u).nm ∧
      t.ec = (tick^[T] u).ec ∧ t.epos = (tick^[T] u).epos

/-- The gate of a host sample is open when it was open on at least one of its ticks
(spec/43_mixer_output.md R181), is else closed, and CLOCK clears it after the sample. The premises are
part of the invariant. -/
def Obligations.GateIsOpenWhenAnyTickOpensIt : Prop :=
  (∀ (s : State) (ch : Channel) (n : Nat), s.gate = 0 →
    (∀ ch', fieldOf s.te ch' = 0x00 ∨ fieldOf s.te ch' = 0x1F) → (s.nm = 0x0000 ∨ s.nm = 0x7FFF) →
    (fieldOf (tick^[n] s).gate ch = 0x00 ∨ fieldOf (tick^[n] s).gate ch = 0x1F) ∧
    (fieldOf (tick^[n] s).gate ch = 0x1F ↔
      ∃ m, 1 ≤ m ∧ m ≤ n ∧ fieldOf (tick^[m] s).gateMask ch = 0x1F)) ∧
  (∀ s : State, (tick s).gate = s.gate ||| (tick s).gateMask) ∧
  (∀ s t : State, exec .clock s = .next t → t.gate = 0)

/-- A tone whose period is shorter than the ticks of the sample opens its gate, where the noise side is
open (spec/70_reset_and_hazards.md R346, the spec's own derivation, with max(TP, 1) for TP; log 20). -/
def Obligations.FastToneAlwaysOpensItsGate : Prop :=
  ∀ (s : State) (ch : Channel) (n : Nat),
    (fieldOf s.te ch = 0x00 ∨ fieldOf s.te ch = 0x1F) →
    (s.reg 7).getLsbD (3 + ch.index) = true → max (s.tp ch).toNat 1 < n →
    fieldOf (tick^[n] s).gate ch = 0x1F

/-- Silence lasts until an amplitude register is written or a level is injected
(spec/70_reset_and_hazards.md R333, the spec's own derivation): reset is silent, and every other
operation keeps a silent instance silent, so every sample is +0.0. -/
def Obligations.SilenceUntilAnAmplitudeIsWritten : Prop :=
  State.reset.Silent ∧
  ∀ (i : Instr) (s t : State), s.cfg.wf = true → s.Silent → i.wf = true →
    (∀ d, i ≠ .wrregR8 d ∧ i ≠ .wrregR9 d ∧ i ≠ .wrregR10 d) →
    (∀ l, i ≠ .setovrA l ∧ i ≠ .setovrB l ∧ i ≠ .setovrC l) →
    (∀ d, i = .wrdata d → s.latch ≠ 8 ∧ s.latch ≠ 9 ∧ s.latch ≠ 10) →
    (∀ v0 v1 v2 v3, i = .loadregs v0 v1 v2 v3 →
      wordByte v2 0 = 0 ∧ wordByte v2 1 = 0 ∧ wordByte v2 2 = 0) →
    exec i s = .next t → t.Silent
end

