-- ==== Sys2Proof/Laws/Encoding.lean ====
section
/-!
SUPPORT. The fields of an operation word and of a word's bytes read back what was put there.
-/

namespace Sys2Proof

/-- Bit `i` of an operation word. -/
theorem getLsbD_opWord (op a d : Byte) (i : Nat) :
    (opWord op a d).getLsbD i =
      if i < 8 then false
      else if i < 16 then d.getLsbD (i - 8)
      else if i < 24 then a.getLsbD (i - 16)
      else op.getLsbD (i - 24) := by
  simp only [opWord, BitVec.getLsbD_append, BitVec.getLsbD_zero]
  by_cases h1 : i < 8
  · simp [h1]
  · by_cases h2 : i < 16
    · simp [h1, h2, show i - 8 < 8 by omega]
    · by_cases h3 : i < 24
      · simp [h1, h2, h3, show ¬ i - 8 < 8 by omega, show i - 8 - 8 = i - 16 by omega,
          show i - 16 < 8 by omega]
      · simp [h1, h2, h3, show ¬ i - 8 < 8 by omega, show ¬ i - 8 - 8 < 8 by omega,
          show i - 8 - 8 - 8 = i - 24 by omega]

@[simp] theorem opField_opWord (op a d : Byte) : opField (opWord op a d) = op := by
  apply BitVec.eq_of_getLsbD_eq
  intro i hi
  simp only [opField, BitVec.getLsbD_extractLsb', getLsbD_opWord, hi, decide_true, Bool.true_and,
    show ¬ 24 + i < 8 by omega, show ¬ 24 + i < 16 by omega, show ¬ 24 + i < 24 by omega, if_false, Nat.add_sub_cancel_left]

@[simp] theorem aField_opWord (op a d : Byte) : aField (opWord op a d) = a := by
  apply BitVec.eq_of_getLsbD_eq
  intro i hi
  simp only [aField, BitVec.getLsbD_extractLsb', getLsbD_opWord, hi, decide_true, Bool.true_and,
    show ¬ 16 + i < 8 by omega, show ¬ 16 + i < 16 by omega, show 16 + i < 24 by omega, if_true, if_false, Nat.add_sub_cancel_left]

@[simp] theorem dField_opWord (op a d : Byte) : dField (opWord op a d) = d := by
  apply BitVec.eq_of_getLsbD_eq
  intro i hi
  simp only [dField, BitVec.getLsbD_extractLsb', getLsbD_opWord, hi, decide_true, Bool.true_and,
    show ¬ 8 + i < 8 by omega, show 8 + i < 16 by omega, if_true, if_false, Nat.add_sub_cancel_left]

@[simp] theorem zField_opWord (op a d : Byte) : zField (opWord op a d) = 0 := by
  apply BitVec.eq_of_getLsbD_eq
  intro i hi
  simp only [zField, BitVec.getLsbD_extractLsb', getLsbD_opWord, hi, Nat.zero_add, if_true,
    Bool.and_false]
  simp

/-- A word is its four fields. -/
theorem word_eq_fields (w : Word) :
    w = opField w ++ aField w ++ dField w ++ zField w := by
  apply BitVec.eq_of_getLsbD_eq
  intro i hi
  simp only [opField, aField, dField, zField, BitVec.getLsbD_append, BitVec.getLsbD_extractLsb']
  by_cases h1 : i < 8
  · simp [h1]
  · by_cases h2 : i - 8 < 8
    · simp [h1, h2, show 8 + (i - 8) = i by omega]
    · by_cases h3 : i - 8 - 8 < 8
      · simp [h1, h2, h3, show 16 + (i - 8 - 8) = i by omega]
      · simp [h1, h2, h3, show 24 + (i - 8 - 8 - 8) = i by omega, show i - 8 - 8 - 8 < 8 by omega]

/-- A word whose Z is 0 is the operation word of its fields. -/
theorem eq_opWord {w : Word} (h : zField w = 0) : w = opWord (opField w) (aField w) (dField w) := by
  conv_lhs => rw [word_eq_fields w]
  rw [h]
  rfl

theorem getLsbD_levelByte (l : Level) (i : Nat) :
    (levelByte l).getLsbD i = if i < 5 then l.getLsbD i else false := by
  simp only [levelByte, BitVec.getLsbD_append, BitVec.getLsbD_zero]

@[simp] theorem levelByte_level (l : Level) : (levelByte l).extractLsb' 0 5 = l := by
  apply BitVec.eq_of_getLsbD_eq
  intro i hi
  simp only [BitVec.getLsbD_extractLsb', getLsbD_levelByte, hi, Nat.zero_add, if_true, decide_true,
    Bool.true_and]

@[simp] theorem levelByte_top (l : Level) : (levelByte l).extractLsb' 5 3 = 0 := by
  apply BitVec.eq_of_getLsbD_eq
  intro i hi
  simp only [BitVec.getLsbD_extractLsb', getLsbD_levelByte, show ¬ 5 + i < 5 by omega, if_false,
    Bool.and_false]
  simp

/-- The decoder on an operation word reads its fields (spec/30_encoding.md R81). -/
theorem decode_opWord (op a d : Byte) (rest : List Word) :
    decode (opWord op a d :: rest) = decodeOp op a d rest := by
  simp [decode]

/-- The four bytes of a word put together again are the word (spec/30_encoding.md R84). -/
theorem wordsOfBytes_bytesOfWord (w : Word) (bs : List Byte) :
    wordsOfBytes (bytesOfWord w ++ bs) = (wordsOfBytes bs).map (w :: ·) := by
  have h := word_eq_fields w
  simp only [opField, aField, dField, zField] at h
  simp only [bytesOfWord, List.cons_append, List.nil_append, wordsOfBytes]
  rw [← h]
  cases wordsOfBytes bs <;> rfl

end Sys2Proof
end

