-- ==== Sys2Proof/Laws/State.lean ====
section
/-!
SUPPORT. The small lemmas of the per-channel records and of the named state updates: what each reads
back as, and what each leaves unchanged. A frame lemma is a conjunction, which simp takes apart into
one rewriting rule per field.
-/

namespace Sys2Proof

/-! ## Per-channel records -/

@[simp] theorem PerChannel.get_set_self {α : Type} (p : PerChannel α) (ch : Channel) (v : α) :
    (p.set ch v).get ch = v := by cases ch <;> rfl

@[simp] theorem PerChannel.get_set_of_ne {α : Type} (p : PerChannel α) {ch ch' : Channel} (v : α)
    (h : ch' ≠ ch) : (p.set ch v).get ch' = p.get ch' := by
  cases ch <;> cases ch' <;> first | rfl | exact absurd rfl h

theorem PerChannel.get_set {α : Type} (p : PerChannel α) (ch ch' : Channel) (v : α) :
    (p.set ch v).get ch' = if ch' = ch then v else p.get ch' := by
  cases ch <;> cases ch' <;> rfl

@[simp] theorem PerChannel.get_all {α : Type} (v : α) (ch : Channel) :
    (PerChannel.all v).get ch = v := by cases ch <;> rfl

theorem PerChannel.ext_get {α : Type} {p q : PerChannel α} (h : ∀ ch, p.get ch = q.get ch) : p = q := by
  have ha := h .a
  have hb := h .b
  have hc := h .c
  cases p
  cases q
  simp_all [PerChannel.get]

namespace Machine

/-! ## Plain updates -/

/-- LATCH changes `LATCH` alone. -/
@[simp] theorem setLatch_frame (a : Byte) (s : State) :
    (setLatch a s).regs = s.regs ∧ (setLatch a s).tc = s.tc ∧ (setLatch a s).te = s.te ∧
    (setLatch a s).tr = s.tr ∧ (setLatch a s).nc = s.nc ∧ (setLatch a s).lfsr = s.lfsr ∧
    (setLatch a s).nh = s.nh ∧ (setLatch a s).nm = s.nm ∧ (setLatch a s).ec = s.ec ∧
    (setLatch a s).epos = s.epos ∧ (setLatch a s).acc = s.acc ∧ (setLatch a s).gate = s.gate ∧
    (setLatch a s).dch = s.dch ∧ (setLatch a s).dci = s.dci ∧ (setLatch a s).dcs = s.dcs ∧
    (setLatch a s).fy1 = s.fy1 ∧ (setLatch a s).fy2 = s.fy2 ∧ (setLatch a s).filt = s.filt ∧
    (setLatch a s).ovr = s.ovr ∧ (setLatch a s).sample = s.sample ∧ (setLatch a s).cfg = s.cfg ∧
    (setLatch a s).pending = s.pending ∧ (setLatch a s).results = s.results ∧
    (setLatch a s).fixedResets = s.fixedResets ∧ (setLatch a s).fixedReads = s.fixedReads ∧
    (setLatch a s).drawn = s.drawn :=
  ⟨rfl, rfl, rfl, rfl, rfl, rfl, rfl, rfl, rfl, rfl, rfl, rfl, rfl, rfl, rfl, rfl, rfl, rfl, rfl, rfl, rfl, rfl, rfl, rfl, rfl, rfl⟩

/-- Handing a result back changes `results` alone. -/
@[simp] theorem handBack_frame (r : Result) (s : State) :
    (handBack r s).regs = s.regs ∧ (handBack r s).latch = s.latch ∧ (handBack r s).tc = s.tc ∧
    (handBack r s).te = s.te ∧ (handBack r s).tr = s.tr ∧ (handBack r s).nc = s.nc ∧
    (handBack r s).lfsr = s.lfsr ∧ (handBack r s).nh = s.nh ∧ (handBack r s).nm = s.nm ∧
    (handBack r s).ec = s.ec ∧ (handBack r s).epos = s.epos ∧ (handBack r s).acc = s.acc ∧
    (handBack r s).gate = s.gate ∧ (handBack r s).dch = s.dch ∧ (handBack r s).dci = s.dci ∧
    (handBack r s).dcs = s.dcs ∧ (handBack r s).fy1 = s.fy1 ∧ (handBack r s).fy2 = s.fy2 ∧
    (handBack r s).filt = s.filt ∧ (handBack r s).ovr = s.ovr ∧ (handBack r s).sample = s.sample ∧
    (handBack r s).cfg = s.cfg ∧ (handBack r s).pending = s.pending ∧
    (handBack r s).fixedResets = s.fixedResets ∧ (handBack r s).fixedReads = s.fixedReads ∧
    (handBack r s).drawn = s.drawn :=
  ⟨rfl, rfl, rfl, rfl, rfl, rfl, rfl, rfl, rfl, rfl, rfl, rfl, rfl, rfl, rfl, rfl, rfl, rfl, rfl, rfl, rfl, rfl, rfl, rfl, rfl, rfl⟩

/-- Issuing words changes `pending` alone. -/
@[simp] theorem hostIssue_frame (ws : List Word) (s : State) :
    (hostIssue ws s).regs = s.regs ∧ (hostIssue ws s).latch = s.latch ∧
    (hostIssue ws s).tc = s.tc ∧ (hostIssue ws s).te = s.te ∧ (hostIssue ws s).tr = s.tr ∧
    (hostIssue ws s).nc = s.nc ∧ (hostIssue ws s).lfsr = s.lfsr ∧ (hostIssue ws s).nh = s.nh ∧
    (hostIssue ws s).nm = s.nm ∧ (hostIssue ws s).ec = s.ec ∧ (hostIssue ws s).epos = s.epos ∧
    (hostIssue ws s).acc = s.acc ∧ (hostIssue ws s).gate = s.gate ∧ (hostIssue ws s).dch = s.dch ∧
    (hostIssue ws s).dci = s.dci ∧ (hostIssue ws s).dcs = s.dcs ∧ (hostIssue ws s).fy1 = s.fy1 ∧
    (hostIssue ws s).fy2 = s.fy2 ∧ (hostIssue ws s).filt = s.filt ∧ (hostIssue ws s).ovr = s.ovr ∧
    (hostIssue ws s).sample = s.sample ∧ (hostIssue ws s).cfg = s.cfg ∧
    (hostIssue ws s).results = s.results ∧ (hostIssue ws s).fixedResets = s.fixedResets ∧
    (hostIssue ws s).fixedReads = s.fixedReads ∧ (hostIssue ws s).drawn = s.drawn :=
  ⟨rfl, rfl, rfl, rfl, rfl, rfl, rfl, rfl, rfl, rfl, rfl, rfl, rfl, rfl, rfl, rfl, rfl, rfl, rfl, rfl, rfl, rfl, rfl, rfl, rfl, rfl⟩

/-- Fixing a RESET draw changes `fixedResets` alone. -/
@[simp] theorem hostFixReset_frame (d : ResetDraw) (s : State) :
    (hostFixReset d s).regs = s.regs ∧ (hostFixReset d s).latch = s.latch ∧
    (hostFixReset d s).tc = s.tc ∧ (hostFixReset d s).te = s.te ∧ (hostFixReset d s).tr = s.tr ∧
    (hostFixReset d s).nc = s.nc ∧ (hostFixReset d s).lfsr = s.lfsr ∧
    (hostFixReset d s).nh = s.nh ∧ (hostFixReset d s).nm = s.nm ∧ (hostFixReset d s).ec = s.ec ∧
    (hostFixReset d s).epos = s.epos ∧ (hostFixReset d s).acc = s.acc ∧
    (hostFixReset d s).gate = s.gate ∧ (hostFixReset d s).dch = s.dch ∧
    (hostFixReset d s).dci = s.dci ∧ (hostFixReset d s).dcs = s.dcs ∧
    (hostFixReset d s).fy1 = s.fy1 ∧ (hostFixReset d s).fy2 = s.fy2 ∧
    (hostFixReset d s).filt = s.filt ∧ (hostFixReset d s).ovr = s.ovr ∧
    (hostFixReset d s).sample = s.sample ∧ (hostFixReset d s).cfg = s.cfg ∧
    (hostFixReset d s).pending = s.pending ∧ (hostFixReset d s).results = s.results ∧
    (hostFixReset d s).fixedReads = s.fixedReads ∧ (hostFixReset d s).drawn = s.drawn :=
  ⟨rfl, rfl, rfl, rfl, rfl, rfl, rfl, rfl, rfl, rfl, rfl, rfl, rfl, rfl, rfl, rfl, rfl, rfl, rfl, rfl, rfl, rfl, rfl, rfl, rfl, rfl⟩

/-- Fixing a read draw changes `fixedReads` alone. -/
@[simp] theorem hostFixRead_frame (v : Byte) (s : State) :
    (hostFixRead v s).regs = s.regs ∧ (hostFixRead v s).latch = s.latch ∧
    (hostFixRead v s).tc = s.tc ∧ (hostFixRead v s).te = s.te ∧ (hostFixRead v s).tr = s.tr ∧
    (hostFixRead v s).nc = s.nc ∧ (hostFixRead v s).lfsr = s.lfsr ∧ (hostFixRead v s).nh = s.nh ∧
    (hostFixRead v s).nm = s.nm ∧ (hostFixRead v s).ec = s.ec ∧ (hostFixRead v s).epos = s.epos ∧
    (hostFixRead v s).acc = s.acc ∧ (hostFixRead v s).gate = s.gate ∧
    (hostFixRead v s).dch = s.dch ∧ (hostFixRead v s).dci = s.dci ∧
    (hostFixRead v s).dcs = s.dcs ∧ (hostFixRead v s).fy1 = s.fy1 ∧
    (hostFixRead v s).fy2 = s.fy2 ∧ (hostFixRead v s).filt = s.filt ∧
    (hostFixRead v s).ovr = s.ovr ∧ (hostFixRead v s).sample = s.sample ∧
    (hostFixRead v s).cfg = s.cfg ∧ (hostFixRead v s).pending = s.pending ∧
    (hostFixRead v s).results = s.results ∧ (hostFixRead v s).fixedResets = s.fixedResets ∧
    (hostFixRead v s).drawn = s.drawn :=
  ⟨rfl, rfl, rfl, rfl, rfl, rfl, rfl, rfl, rfl, rfl, rfl, rfl, rfl, rfl, rfl, rfl, rfl, rfl, rfl, rfl, rfl, rfl, rfl, rfl, rfl, rfl⟩

/-- The envelope restart changes `EPOS` and `EC` alone. -/
@[simp] theorem envRestart_frame (s : State) :
    (envRestart s).regs = s.regs ∧ (envRestart s).latch = s.latch ∧ (envRestart s).tc = s.tc ∧
    (envRestart s).te = s.te ∧ (envRestart s).tr = s.tr ∧ (envRestart s).nc = s.nc ∧
    (envRestart s).lfsr = s.lfsr ∧ (envRestart s).nh = s.nh ∧ (envRestart s).nm = s.nm ∧
    (envRestart s).acc = s.acc ∧ (envRestart s).gate = s.gate ∧ (envRestart s).dch = s.dch ∧
    (envRestart s).dci = s.dci ∧ (envRestart s).dcs = s.dcs ∧ (envRestart s).fy1 = s.fy1 ∧
    (envRestart s).fy2 = s.fy2 ∧ (envRestart s).filt = s.filt ∧ (envRestart s).ovr = s.ovr ∧
    (envRestart s).sample = s.sample ∧ (envRestart s).cfg = s.cfg ∧
    (envRestart s).pending = s.pending ∧ (envRestart s).results = s.results ∧
    (envRestart s).fixedResets = s.fixedResets ∧ (envRestart s).fixedReads = s.fixedReads ∧
    (envRestart s).drawn = s.drawn :=
  ⟨rfl, rfl, rfl, rfl, rfl, rfl, rfl, rfl, rfl, rfl, rfl, rfl, rfl, rfl, rfl, rfl, rfl, rfl, rfl, rfl, rfl, rfl, rfl, rfl, rfl⟩

/-- A store changes the register file alone. -/
@[simp] theorem storeReg_frame (i : Fin 16) (d : Byte) (s : State) :
    (storeReg i d s).latch = s.latch ∧ (storeReg i d s).tc = s.tc ∧ (storeReg i d s).te = s.te ∧
    (storeReg i d s).tr = s.tr ∧ (storeReg i d s).nc = s.nc ∧ (storeReg i d s).lfsr = s.lfsr ∧
    (storeReg i d s).nh = s.nh ∧ (storeReg i d s).nm = s.nm ∧ (storeReg i d s).ec = s.ec ∧
    (storeReg i d s).epos = s.epos ∧ (storeReg i d s).acc = s.acc ∧
    (storeReg i d s).gate = s.gate ∧ (storeReg i d s).dch = s.dch ∧ (storeReg i d s).dci = s.dci ∧
    (storeReg i d s).dcs = s.dcs ∧ (storeReg i d s).fy1 = s.fy1 ∧ (storeReg i d s).fy2 = s.fy2 ∧
    (storeReg i d s).filt = s.filt ∧ (storeReg i d s).ovr = s.ovr ∧
    (storeReg i d s).sample = s.sample ∧ (storeReg i d s).cfg = s.cfg ∧
    (storeReg i d s).pending = s.pending ∧ (storeReg i d s).results = s.results ∧
    (storeReg i d s).fixedResets = s.fixedResets ∧ (storeReg i d s).fixedReads = s.fixedReads ∧
    (storeReg i d s).drawn = s.drawn :=
  ⟨rfl, rfl, rfl, rfl, rfl, rfl, rfl, rfl, rfl, rfl, rfl, rfl, rfl, rfl, rfl, rfl, rfl, rfl, rfl, rfl, rfl, rfl, rfl, rfl, rfl, rfl⟩

/-- TONERESET changes `TR` alone. -/
@[simp] theorem requestToneReset_frame (ch : Channel) (s : State) :
    (requestToneReset ch s).regs = s.regs ∧ (requestToneReset ch s).latch = s.latch ∧
    (requestToneReset ch s).tc = s.tc ∧ (requestToneReset ch s).te = s.te ∧
    (requestToneReset ch s).nc = s.nc ∧ (requestToneReset ch s).lfsr = s.lfsr ∧
    (requestToneReset ch s).nh = s.nh ∧ (requestToneReset ch s).nm = s.nm ∧
    (requestToneReset ch s).ec = s.ec ∧ (requestToneReset ch s).epos = s.epos ∧
    (requestToneReset ch s).acc = s.acc ∧ (requestToneReset ch s).gate = s.gate ∧
    (requestToneReset ch s).dch = s.dch ∧ (requestToneReset ch s).dci = s.dci ∧
    (requestToneReset ch s).dcs = s.dcs ∧ (requestToneReset ch s).fy1 = s.fy1 ∧
    (requestToneReset ch s).fy2 = s.fy2 ∧ (requestToneReset ch s).filt = s.filt ∧
    (requestToneReset ch s).ovr = s.ovr ∧ (requestToneReset ch s).sample = s.sample ∧
    (requestToneReset ch s).cfg = s.cfg ∧ (requestToneReset ch s).pending = s.pending ∧
    (requestToneReset ch s).results = s.results ∧
    (requestToneReset ch s).fixedResets = s.fixedResets ∧
    (requestToneReset ch s).fixedReads = s.fixedReads ∧ (requestToneReset ch s).drawn = s.drawn :=
  ⟨rfl, rfl, rfl, rfl, rfl, rfl, rfl, rfl, rfl, rfl, rfl, rfl, rfl, rfl, rfl, rfl, rfl, rfl, rfl, rfl, rfl, rfl, rfl, rfl, rfl, rfl⟩

/-- SETOVR and CLROVR change `OVR` alone. -/
@[simp] theorem setOverride_frame (ch : Channel) (v : Option Level) (s : State) :
    (setOverride ch v s).regs = s.regs ∧ (setOverride ch v s).latch = s.latch ∧
    (setOverride ch v s).tc = s.tc ∧ (setOverride ch v s).te = s.te ∧
    (setOverride ch v s).tr = s.tr ∧ (setOverride ch v s).nc = s.nc ∧
    (setOverride ch v s).lfsr = s.lfsr ∧ (setOverride ch v s).nh = s.nh ∧
    (setOverride ch v s).nm = s.nm ∧ (setOverride ch v s).ec = s.ec ∧
    (setOverride ch v s).epos = s.epos ∧ (setOverride ch v s).acc = s.acc ∧
    (setOverride ch v s).gate = s.gate ∧ (setOverride ch v s).dch = s.dch ∧
    (setOverride ch v s).dci = s.dci ∧ (setOverride ch v s).dcs = s.dcs ∧
    (setOverride ch v s).fy1 = s.fy1 ∧ (setOverride ch v s).fy2 = s.fy2 ∧
    (setOverride ch v s).filt = s.filt ∧ (setOverride ch v s).sample = s.sample ∧
    (setOverride ch v s).cfg = s.cfg ∧ (setOverride ch v s).pending = s.pending ∧
    (setOverride ch v s).results = s.results ∧ (setOverride ch v s).fixedResets = s.fixedResets ∧
    (setOverride ch v s).fixedReads = s.fixedReads ∧ (setOverride ch v s).drawn = s.drawn :=
  ⟨rfl, rfl, rfl, rfl, rfl, rfl, rfl, rfl, rfl, rfl, rfl, rfl, rfl, rfl, rfl, rfl, rfl, rfl, rfl, rfl, rfl, rfl, rfl, rfl, rfl, rfl⟩

/-- The gate step changes `GATE` alone. -/
@[simp] theorem accumulateGate_frame (s : State) :
    (accumulateGate s).regs = s.regs ∧ (accumulateGate s).latch = s.latch ∧
    (accumulateGate s).tc = s.tc ∧ (accumulateGate s).te = s.te ∧ (accumulateGate s).tr = s.tr ∧
    (accumulateGate s).nc = s.nc ∧ (accumulateGate s).lfsr = s.lfsr ∧
    (accumulateGate s).nh = s.nh ∧ (accumulateGate s).nm = s.nm ∧ (accumulateGate s).ec = s.ec ∧
    (accumulateGate s).epos = s.epos ∧ (accumulateGate s).acc = s.acc ∧
    (accumulateGate s).dch = s.dch ∧ (accumulateGate s).dci = s.dci ∧
    (accumulateGate s).dcs = s.dcs ∧ (accumulateGate s).fy1 = s.fy1 ∧
    (accumulateGate s).fy2 = s.fy2 ∧ (accumulateGate s).filt = s.filt ∧
    (accumulateGate s).ovr = s.ovr ∧ (accumulateGate s).sample = s.sample ∧
    (accumulateGate s).cfg = s.cfg ∧ (accumulateGate s).pending = s.pending ∧
    (accumulateGate s).results = s.results ∧ (accumulateGate s).fixedResets = s.fixedResets ∧
    (accumulateGate s).fixedReads = s.fixedReads ∧ (accumulateGate s).drawn = s.drawn :=
  ⟨rfl, rfl, rfl, rfl, rfl, rfl, rfl, rfl, rfl, rfl, rfl, rfl, rfl, rfl, rfl, rfl, rfl, rfl, rfl, rfl, rfl, rfl, rfl, rfl, rfl, rfl⟩

/-- The DC update changes the DC filter alone. -/
@[simp] theorem dcUpdate_frame (x : Nat) (s : State) :
    (dcUpdate x s).regs = s.regs ∧ (dcUpdate x s).latch = s.latch ∧ (dcUpdate x s).tc = s.tc ∧
    (dcUpdate x s).te = s.te ∧ (dcUpdate x s).tr = s.tr ∧ (dcUpdate x s).nc = s.nc ∧
    (dcUpdate x s).lfsr = s.lfsr ∧ (dcUpdate x s).nh = s.nh ∧ (dcUpdate x s).nm = s.nm ∧
    (dcUpdate x s).ec = s.ec ∧ (dcUpdate x s).epos = s.epos ∧ (dcUpdate x s).acc = s.acc ∧
    (dcUpdate x s).gate = s.gate ∧ (dcUpdate x s).fy1 = s.fy1 ∧ (dcUpdate x s).fy2 = s.fy2 ∧
    (dcUpdate x s).filt = s.filt ∧ (dcUpdate x s).ovr = s.ovr ∧ (dcUpdate x s).sample = s.sample ∧
    (dcUpdate x s).cfg = s.cfg ∧ (dcUpdate x s).pending = s.pending ∧
    (dcUpdate x s).results = s.results ∧ (dcUpdate x s).fixedResets = s.fixedResets ∧
    (dcUpdate x s).fixedReads = s.fixedReads ∧ (dcUpdate x s).drawn = s.drawn :=
  ⟨rfl, rfl, rfl, rfl, rfl, rfl, rfl, rfl, rfl, rfl, rfl, rfl, rfl, rfl, rfl, rfl, rfl, rfl, rfl, rfl, rfl, rfl, rfl, rfl⟩

/-- The FIR update changes the FIR history alone. -/
@[simp] theorem firUpdate_frame (y : Int) (s : State) :
    (firUpdate y s).regs = s.regs ∧ (firUpdate y s).latch = s.latch ∧ (firUpdate y s).tc = s.tc ∧
    (firUpdate y s).te = s.te ∧ (firUpdate y s).tr = s.tr ∧ (firUpdate y s).nc = s.nc ∧
    (firUpdate y s).lfsr = s.lfsr ∧ (firUpdate y s).nh = s.nh ∧ (firUpdate y s).nm = s.nm ∧
    (firUpdate y s).ec = s.ec ∧ (firUpdate y s).epos = s.epos ∧ (firUpdate y s).acc = s.acc ∧
    (firUpdate y s).gate = s.gate ∧ (firUpdate y s).dch = s.dch ∧ (firUpdate y s).dci = s.dci ∧
    (firUpdate y s).dcs = s.dcs ∧ (firUpdate y s).filt = s.filt ∧ (firUpdate y s).ovr = s.ovr ∧
    (firUpdate y s).sample = s.sample ∧ (firUpdate y s).cfg = s.cfg ∧
    (firUpdate y s).pending = s.pending ∧ (firUpdate y s).results = s.results ∧
    (firUpdate y s).fixedResets = s.fixedResets ∧ (firUpdate y s).fixedReads = s.fixedReads ∧
    (firUpdate y s).drawn = s.drawn :=
  ⟨rfl, rfl, rfl, rfl, rfl, rfl, rfl, rfl, rfl, rfl, rfl, rfl, rfl, rfl, rfl, rfl, rfl, rfl, rfl, rfl, rfl, rfl, rfl, rfl, rfl⟩

/-! ## What the plain updates write -/

@[simp] theorem setLatch_latch (a : Byte) (s : State) : (setLatch a s).latch = a := rfl
@[simp] theorem handBack_results (r : Result) (s : State) :
    (handBack r s).results = s.results ++ [r] := rfl
@[simp] theorem hostIssue_pending (ws : List Word) (s : State) :
    (hostIssue ws s).pending = s.pending ++ ws := rfl
@[simp] theorem envRestart_epos (s : State) : (envRestart s).epos = -64 := rfl
@[simp] theorem envRestart_ec (s : State) : (envRestart s).ec = 0 := rfl
@[simp] theorem storeReg_regs (i : Fin 16) (d : Byte) (s : State) :
    (storeReg i d s).regs = s.regs.set i (d &&& regMask[i]) := rfl
@[simp] theorem requestToneReset_tr (ch : Channel) (s : State) :
    (requestToneReset ch s).tr = s.tr.set ch true := rfl
@[simp] theorem setOverride_ovr (ch : Channel) (v : Option Level) (s : State) :
    (setOverride ch v s).ovr = s.ovr.set ch v := rfl
@[simp] theorem accumulateGate_gate (s : State) :
    (accumulateGate s).gate = s.gate ||| s.gateMask := rfl
@[simp] theorem firUpdate_fy1 (y : Int) (s : State) : (firUpdate y s).fy1 = y := rfl
@[simp] theorem firUpdate_fy2 (y : Int) (s : State) : (firUpdate y s).fy2 = s.fy1 := rfl
@[simp] theorem dcUpdate_dch (x : Nat) (s : State) : (dcUpdate x s).dch = s.dch.set s.dci x := rfl
@[simp] theorem dcUpdate_dci (x : Nat) (s : State) :
    (dcUpdate x s).dci = (s.dci + 1) % s.cfg.dcWindow := rfl
@[simp] theorem dcUpdate_dcs (x : Nat) (s : State) :
    (dcUpdate x s).dcs = s.dcs - (s.dch.getD s.dci 0 : Nat) + x := rfl

/-! ## Conditional updates -/

/-- Using up a read draw changes the draw supply alone. -/
@[simp] theorem useRead_frame (s : State) :
    (useRead s).regs = s.regs ∧ (useRead s).latch = s.latch ∧ (useRead s).tc = s.tc ∧
    (useRead s).te = s.te ∧ (useRead s).tr = s.tr ∧ (useRead s).nc = s.nc ∧
    (useRead s).lfsr = s.lfsr ∧ (useRead s).nh = s.nh ∧ (useRead s).nm = s.nm ∧
    (useRead s).ec = s.ec ∧ (useRead s).epos = s.epos ∧ (useRead s).acc = s.acc ∧
    (useRead s).gate = s.gate ∧ (useRead s).dch = s.dch ∧ (useRead s).dci = s.dci ∧
    (useRead s).dcs = s.dcs ∧ (useRead s).fy1 = s.fy1 ∧ (useRead s).fy2 = s.fy2 ∧
    (useRead s).filt = s.filt ∧ (useRead s).ovr = s.ovr ∧ (useRead s).sample = s.sample ∧
    (useRead s).cfg = s.cfg ∧ (useRead s).pending = s.pending ∧ (useRead s).results = s.results ∧
    (useRead s).fixedResets = s.fixedResets :=
  by unfold useRead; split <;> simp

/-- Using up a RESET draw changes the draw supply alone. -/
@[simp] theorem useReset_frame (s : State) :
    (useReset s).regs = s.regs ∧ (useReset s).latch = s.latch ∧ (useReset s).tc = s.tc ∧
    (useReset s).te = s.te ∧ (useReset s).tr = s.tr ∧ (useReset s).nc = s.nc ∧
    (useReset s).lfsr = s.lfsr ∧ (useReset s).nh = s.nh ∧ (useReset s).nm = s.nm ∧
    (useReset s).ec = s.ec ∧ (useReset s).epos = s.epos ∧ (useReset s).acc = s.acc ∧
    (useReset s).gate = s.gate ∧ (useReset s).dch = s.dch ∧ (useReset s).dci = s.dci ∧
    (useReset s).dcs = s.dcs ∧ (useReset s).fy1 = s.fy1 ∧ (useReset s).fy2 = s.fy2 ∧
    (useReset s).filt = s.filt ∧ (useReset s).ovr = s.ovr ∧ (useReset s).sample = s.sample ∧
    (useReset s).cfg = s.cfg ∧ (useReset s).pending = s.pending ∧
    (useReset s).results = s.results ∧ (useReset s).fixedReads = s.fixedReads :=
  by unfold useReset; split <;> simp

/-- A read changes the draw supply at most (R230). -/
@[simp] theorem readRegState_frame (a : Byte) (s : State) :
    (readRegState a s).regs = s.regs ∧ (readRegState a s).latch = s.latch ∧
    (readRegState a s).tc = s.tc ∧ (readRegState a s).te = s.te ∧ (readRegState a s).tr = s.tr ∧
    (readRegState a s).nc = s.nc ∧ (readRegState a s).lfsr = s.lfsr ∧
    (readRegState a s).nh = s.nh ∧ (readRegState a s).nm = s.nm ∧ (readRegState a s).ec = s.ec ∧
    (readRegState a s).epos = s.epos ∧ (readRegState a s).acc = s.acc ∧
    (readRegState a s).gate = s.gate ∧ (readRegState a s).dch = s.dch ∧
    (readRegState a s).dci = s.dci ∧ (readRegState a s).dcs = s.dcs ∧
    (readRegState a s).fy1 = s.fy1 ∧ (readRegState a s).fy2 = s.fy2 ∧
    (readRegState a s).filt = s.filt ∧ (readRegState a s).ovr = s.ovr ∧
    (readRegState a s).sample = s.sample ∧ (readRegState a s).cfg = s.cfg ∧
    (readRegState a s).pending = s.pending ∧ (readRegState a s).results = s.results ∧
    (readRegState a s).fixedResets = s.fixedResets :=
  by unfold readRegState; split <;> simp

/-- The side effect of a write changes the envelope position and counter at most (R67). -/
@[simp] theorem writeEffect_frame (i : Fin 16) (s : State) :
    (writeEffect i s).regs = s.regs ∧ (writeEffect i s).latch = s.latch ∧
    (writeEffect i s).tc = s.tc ∧ (writeEffect i s).te = s.te ∧ (writeEffect i s).tr = s.tr ∧
    (writeEffect i s).nc = s.nc ∧ (writeEffect i s).lfsr = s.lfsr ∧ (writeEffect i s).nh = s.nh ∧
    (writeEffect i s).nm = s.nm ∧ (writeEffect i s).acc = s.acc ∧
    (writeEffect i s).gate = s.gate ∧ (writeEffect i s).dch = s.dch ∧
    (writeEffect i s).dci = s.dci ∧ (writeEffect i s).dcs = s.dcs ∧
    (writeEffect i s).fy1 = s.fy1 ∧ (writeEffect i s).fy2 = s.fy2 ∧
    (writeEffect i s).filt = s.filt ∧ (writeEffect i s).ovr = s.ovr ∧
    (writeEffect i s).sample = s.sample ∧ (writeEffect i s).cfg = s.cfg ∧
    (writeEffect i s).pending = s.pending ∧ (writeEffect i s).results = s.results ∧
    (writeEffect i s).fixedResets = s.fixedResets ∧ (writeEffect i s).fixedReads = s.fixedReads ∧
    (writeEffect i s).drawn = s.drawn :=
  by unfold writeEffect; split <;> simp

/-- WriteReg changes the register file and, for R[13], the envelope (R67, R236). -/
@[simp] theorem writeReg_frame (a d : Byte) (s : State) :
    (writeReg a d s).latch = s.latch ∧ (writeReg a d s).tc = s.tc ∧ (writeReg a d s).te = s.te ∧
    (writeReg a d s).tr = s.tr ∧ (writeReg a d s).nc = s.nc ∧ (writeReg a d s).lfsr = s.lfsr ∧
    (writeReg a d s).nh = s.nh ∧ (writeReg a d s).nm = s.nm ∧ (writeReg a d s).acc = s.acc ∧
    (writeReg a d s).gate = s.gate ∧ (writeReg a d s).dch = s.dch ∧ (writeReg a d s).dci = s.dci ∧
    (writeReg a d s).dcs = s.dcs ∧ (writeReg a d s).fy1 = s.fy1 ∧ (writeReg a d s).fy2 = s.fy2 ∧
    (writeReg a d s).filt = s.filt ∧ (writeReg a d s).ovr = s.ovr ∧
    (writeReg a d s).sample = s.sample ∧ (writeReg a d s).cfg = s.cfg ∧
    (writeReg a d s).pending = s.pending ∧ (writeReg a d s).results = s.results ∧
    (writeReg a d s).fixedResets = s.fixedResets ∧ (writeReg a d s).fixedReads = s.fixedReads ∧
    (writeReg a d s).drawn = s.drawn :=
  by unfold writeReg; split <;> simp

/-- WRREG changes `LATCH`, the register file and, for R[13], the envelope (R234). -/
@[simp] theorem latchedWrite_frame (a d : Byte) (s : State) :
    (latchedWrite a d s).tc = s.tc ∧ (latchedWrite a d s).te = s.te ∧
    (latchedWrite a d s).tr = s.tr ∧ (latchedWrite a d s).nc = s.nc ∧
    (latchedWrite a d s).lfsr = s.lfsr ∧ (latchedWrite a d s).nh = s.nh ∧
    (latchedWrite a d s).nm = s.nm ∧ (latchedWrite a d s).acc = s.acc ∧
    (latchedWrite a d s).gate = s.gate ∧ (latchedWrite a d s).dch = s.dch ∧
    (latchedWrite a d s).dci = s.dci ∧ (latchedWrite a d s).dcs = s.dcs ∧
    (latchedWrite a d s).fy1 = s.fy1 ∧ (latchedWrite a d s).fy2 = s.fy2 ∧
    (latchedWrite a d s).filt = s.filt ∧ (latchedWrite a d s).ovr = s.ovr ∧
    (latchedWrite a d s).sample = s.sample ∧ (latchedWrite a d s).cfg = s.cfg ∧
    (latchedWrite a d s).pending = s.pending ∧ (latchedWrite a d s).results = s.results ∧
    (latchedWrite a d s).fixedResets = s.fixedResets ∧
    (latchedWrite a d s).fixedReads = s.fixedReads ∧ (latchedWrite a d s).drawn = s.drawn :=
  by simp [latchedWrite]

/-- One write of LOADREGS. -/
@[simp] theorem loadReg_frame (f : Vector Byte 16) (s : State) (i : Fin 16) :
    (loadReg f s i).latch = s.latch ∧ (loadReg f s i).tc = s.tc ∧ (loadReg f s i).te = s.te ∧
    (loadReg f s i).tr = s.tr ∧ (loadReg f s i).nc = s.nc ∧ (loadReg f s i).lfsr = s.lfsr ∧
    (loadReg f s i).nh = s.nh ∧ (loadReg f s i).nm = s.nm ∧ (loadReg f s i).acc = s.acc ∧
    (loadReg f s i).gate = s.gate ∧ (loadReg f s i).dch = s.dch ∧ (loadReg f s i).dci = s.dci ∧
    (loadReg f s i).dcs = s.dcs ∧ (loadReg f s i).fy1 = s.fy1 ∧ (loadReg f s i).fy2 = s.fy2 ∧
    (loadReg f s i).filt = s.filt ∧ (loadReg f s i).ovr = s.ovr ∧
    (loadReg f s i).sample = s.sample ∧ (loadReg f s i).cfg = s.cfg ∧
    (loadReg f s i).pending = s.pending ∧ (loadReg f s i).results = s.results ∧
    (loadReg f s i).fixedResets = s.fixedResets ∧ (loadReg f s i).fixedReads = s.fixedReads ∧
    (loadReg f s i).drawn = s.drawn :=
  by unfold loadReg; split <;> simp

/-- Returning a register changes the host port alone (R230). -/
@[simp] theorem returnReg_frame (a : Byte) (s : State) :
    (returnReg a s).regs = s.regs ∧ (returnReg a s).latch = s.latch ∧ (returnReg a s).tc = s.tc ∧
    (returnReg a s).te = s.te ∧ (returnReg a s).tr = s.tr ∧ (returnReg a s).nc = s.nc ∧
    (returnReg a s).lfsr = s.lfsr ∧ (returnReg a s).nh = s.nh ∧ (returnReg a s).nm = s.nm ∧
    (returnReg a s).ec = s.ec ∧ (returnReg a s).epos = s.epos ∧ (returnReg a s).acc = s.acc ∧
    (returnReg a s).gate = s.gate ∧ (returnReg a s).dch = s.dch ∧ (returnReg a s).dci = s.dci ∧
    (returnReg a s).dcs = s.dcs ∧ (returnReg a s).fy1 = s.fy1 ∧ (returnReg a s).fy2 = s.fy2 ∧
    (returnReg a s).filt = s.filt ∧ (returnReg a s).ovr = s.ovr ∧
    (returnReg a s).sample = s.sample ∧ (returnReg a s).cfg = s.cfg ∧
    (returnReg a s).pending = s.pending ∧ (returnReg a s).fixedResets = s.fixedResets :=
  by simp [returnReg]

/-- A tone step changes its counter and edge alone (R110). -/
@[simp] theorem toneStep_frame (ch : Channel) (s : State) :
    (toneStep ch s).regs = s.regs ∧ (toneStep ch s).latch = s.latch ∧ (toneStep ch s).tr = s.tr ∧
    (toneStep ch s).nc = s.nc ∧ (toneStep ch s).lfsr = s.lfsr ∧ (toneStep ch s).nh = s.nh ∧
    (toneStep ch s).nm = s.nm ∧ (toneStep ch s).ec = s.ec ∧ (toneStep ch s).epos = s.epos ∧
    (toneStep ch s).acc = s.acc ∧ (toneStep ch s).gate = s.gate ∧ (toneStep ch s).dch = s.dch ∧
    (toneStep ch s).dci = s.dci ∧ (toneStep ch s).dcs = s.dcs ∧ (toneStep ch s).fy1 = s.fy1 ∧
    (toneStep ch s).fy2 = s.fy2 ∧ (toneStep ch s).filt = s.filt ∧ (toneStep ch s).ovr = s.ovr ∧
    (toneStep ch s).sample = s.sample ∧ (toneStep ch s).cfg = s.cfg ∧
    (toneStep ch s).pending = s.pending ∧ (toneStep ch s).results = s.results ∧
    (toneStep ch s).fixedResets = s.fixedResets ∧ (toneStep ch s).fixedReads = s.fixedReads ∧
    (toneStep ch s).drawn = s.drawn :=
  by unfold toneStep; split <;> simp

/-- The tone tick changes the counters and edges alone (R110). -/
@[simp] theorem toneTick_frame (s : State) :
    (toneTick s).regs = s.regs ∧ (toneTick s).latch = s.latch ∧ (toneTick s).tr = s.tr ∧
    (toneTick s).nc = s.nc ∧ (toneTick s).lfsr = s.lfsr ∧ (toneTick s).nh = s.nh ∧
    (toneTick s).nm = s.nm ∧ (toneTick s).ec = s.ec ∧ (toneTick s).epos = s.epos ∧
    (toneTick s).acc = s.acc ∧ (toneTick s).gate = s.gate ∧ (toneTick s).dch = s.dch ∧
    (toneTick s).dci = s.dci ∧ (toneTick s).dcs = s.dcs ∧ (toneTick s).fy1 = s.fy1 ∧
    (toneTick s).fy2 = s.fy2 ∧ (toneTick s).filt = s.filt ∧ (toneTick s).ovr = s.ovr ∧
    (toneTick s).sample = s.sample ∧ (toneTick s).cfg = s.cfg ∧ (toneTick s).pending = s.pending ∧
    (toneTick s).results = s.results ∧ (toneTick s).fixedResets = s.fixedResets ∧
    (toneTick s).fixedReads = s.fixedReads ∧ (toneTick s).drawn = s.drawn :=
  by simp [toneTick]

/-- The noise tick changes the noise generator alone (R130). -/
@[simp] theorem noiseTick_frame (s : State) :
    (noiseTick s).regs = s.regs ∧ (noiseTick s).latch = s.latch ∧ (noiseTick s).tc = s.tc ∧
    (noiseTick s).te = s.te ∧ (noiseTick s).tr = s.tr ∧ (noiseTick s).ec = s.ec ∧
    (noiseTick s).epos = s.epos ∧ (noiseTick s).acc = s.acc ∧ (noiseTick s).gate = s.gate ∧
    (noiseTick s).dch = s.dch ∧ (noiseTick s).dci = s.dci ∧ (noiseTick s).dcs = s.dcs ∧
    (noiseTick s).fy1 = s.fy1 ∧ (noiseTick s).fy2 = s.fy2 ∧ (noiseTick s).filt = s.filt ∧
    (noiseTick s).ovr = s.ovr ∧ (noiseTick s).sample = s.sample ∧ (noiseTick s).cfg = s.cfg ∧
    (noiseTick s).pending = s.pending ∧ (noiseTick s).results = s.results ∧
    (noiseTick s).fixedResets = s.fixedResets ∧ (noiseTick s).fixedReads = s.fixedReads ∧
    (noiseTick s).drawn = s.drawn :=
  by unfold noiseTick; split <;> (try split) <;> simp

/-- The envelope tick changes the envelope generator alone (R150). -/
@[simp] theorem envTick_frame (s : State) :
    (envTick s).regs = s.regs ∧ (envTick s).latch = s.latch ∧ (envTick s).tc = s.tc ∧
    (envTick s).te = s.te ∧ (envTick s).tr = s.tr ∧ (envTick s).nc = s.nc ∧
    (envTick s).lfsr = s.lfsr ∧ (envTick s).nh = s.nh ∧ (envTick s).nm = s.nm ∧
    (envTick s).acc = s.acc ∧ (envTick s).gate = s.gate ∧ (envTick s).dch = s.dch ∧
    (envTick s).dci = s.dci ∧ (envTick s).dcs = s.dcs ∧ (envTick s).fy1 = s.fy1 ∧
    (envTick s).fy2 = s.fy2 ∧ (envTick s).filt = s.filt ∧ (envTick s).ovr = s.ovr ∧
    (envTick s).sample = s.sample ∧ (envTick s).cfg = s.cfg ∧ (envTick s).pending = s.pending ∧
    (envTick s).results = s.results ∧ (envTick s).fixedResets = s.fixedResets ∧
    (envTick s).fixedReads = s.fixedReads ∧ (envTick s).drawn = s.drawn :=
  by unfold envTick; split <;> simp

/-- A tick changes the generators and `GATE` alone (R213). -/
@[simp] theorem tick_frame (s : State) :
    (tick s).regs = s.regs ∧ (tick s).latch = s.latch ∧ (tick s).tr = s.tr ∧
    (tick s).acc = s.acc ∧ (tick s).dch = s.dch ∧ (tick s).dci = s.dci ∧ (tick s).dcs = s.dcs ∧
    (tick s).fy1 = s.fy1 ∧ (tick s).fy2 = s.fy2 ∧ (tick s).filt = s.filt ∧ (tick s).ovr = s.ovr ∧
    (tick s).sample = s.sample ∧ (tick s).cfg = s.cfg ∧ (tick s).pending = s.pending ∧
    (tick s).results = s.results ∧ (tick s).fixedResets = s.fixedResets ∧
    (tick s).fixedReads = s.fixedReads ∧ (tick s).drawn = s.drawn :=
  by simp [tick]

/-- A counted tick changes `ACC` too (R214). -/
@[simp] theorem tickAndCount_frame (s : State) :
    (tickAndCount s).regs = s.regs ∧ (tickAndCount s).latch = s.latch ∧
    (tickAndCount s).tr = s.tr ∧ (tickAndCount s).dch = s.dch ∧ (tickAndCount s).dci = s.dci ∧
    (tickAndCount s).dcs = s.dcs ∧ (tickAndCount s).fy1 = s.fy1 ∧ (tickAndCount s).fy2 = s.fy2 ∧
    (tickAndCount s).filt = s.filt ∧ (tickAndCount s).ovr = s.ovr ∧
    (tickAndCount s).sample = s.sample ∧ (tickAndCount s).cfg = s.cfg ∧
    (tickAndCount s).pending = s.pending ∧ (tickAndCount s).results = s.results ∧
    (tickAndCount s).fixedResets = s.fixedResets ∧ (tickAndCount s).fixedReads = s.fixedReads ∧
    (tickAndCount s).drawn = s.drawn :=
  by simp [tickAndCount]

/-- A deferred reset changes its counter and flag alone (R113). -/
@[simp] theorem resolveToneReset_frame (ch : Channel) (s : State) :
    (resolveToneReset ch s).regs = s.regs ∧ (resolveToneReset ch s).latch = s.latch ∧
    (resolveToneReset ch s).te = s.te ∧ (resolveToneReset ch s).nc = s.nc ∧
    (resolveToneReset ch s).lfsr = s.lfsr ∧ (resolveToneReset ch s).nh = s.nh ∧
    (resolveToneReset ch s).nm = s.nm ∧ (resolveToneReset ch s).ec = s.ec ∧
    (resolveToneReset ch s).epos = s.epos ∧ (resolveToneReset ch s).acc = s.acc ∧
    (resolveToneReset ch s).gate = s.gate ∧ (resolveToneReset ch s).dch = s.dch ∧
    (resolveToneReset ch s).dci = s.dci ∧ (resolveToneReset ch s).dcs = s.dcs ∧
    (resolveToneReset ch s).fy1 = s.fy1 ∧ (resolveToneReset ch s).fy2 = s.fy2 ∧
    (resolveToneReset ch s).filt = s.filt ∧ (resolveToneReset ch s).ovr = s.ovr ∧
    (resolveToneReset ch s).sample = s.sample ∧ (resolveToneReset ch s).cfg = s.cfg ∧
    (resolveToneReset ch s).pending = s.pending ∧ (resolveToneReset ch s).results = s.results ∧
    (resolveToneReset ch s).fixedResets = s.fixedResets ∧
    (resolveToneReset ch s).fixedReads = s.fixedReads ∧ (resolveToneReset ch s).drawn = s.drawn :=
  by unfold resolveToneReset; split <;> simp

/-- The deferred resets change the counters and flags alone (R113). -/
@[simp] theorem resolveToneResets_frame (s : State) :
    (resolveToneResets s).regs = s.regs ∧ (resolveToneResets s).latch = s.latch ∧
    (resolveToneResets s).te = s.te ∧ (resolveToneResets s).nc = s.nc ∧
    (resolveToneResets s).lfsr = s.lfsr ∧ (resolveToneResets s).nh = s.nh ∧
    (resolveToneResets s).nm = s.nm ∧ (resolveToneResets s).ec = s.ec ∧
    (resolveToneResets s).epos = s.epos ∧ (resolveToneResets s).acc = s.acc ∧
    (resolveToneResets s).gate = s.gate ∧ (resolveToneResets s).dch = s.dch ∧
    (resolveToneResets s).dci = s.dci ∧ (resolveToneResets s).dcs = s.dcs ∧
    (resolveToneResets s).fy1 = s.fy1 ∧ (resolveToneResets s).fy2 = s.fy2 ∧
    (resolveToneResets s).filt = s.filt ∧ (resolveToneResets s).ovr = s.ovr ∧
    (resolveToneResets s).sample = s.sample ∧ (resolveToneResets s).cfg = s.cfg ∧
    (resolveToneResets s).pending = s.pending ∧ (resolveToneResets s).results = s.results ∧
    (resolveToneResets s).fixedResets = s.fixedResets ∧
    (resolveToneResets s).fixedReads = s.fixedReads ∧ (resolveToneResets s).drawn = s.drawn :=
  by simp [resolveToneResets]

/-- The output stage changes the filters and `SAMPLE` alone (R195). -/
@[simp] theorem outputStage_frame (x : Nat) (s : State) :
    (outputStage x s).regs = s.regs ∧ (outputStage x s).latch = s.latch ∧
    (outputStage x s).tc = s.tc ∧ (outputStage x s).te = s.te ∧ (outputStage x s).tr = s.tr ∧
    (outputStage x s).nc = s.nc ∧ (outputStage x s).lfsr = s.lfsr ∧ (outputStage x s).nh = s.nh ∧
    (outputStage x s).nm = s.nm ∧ (outputStage x s).ec = s.ec ∧ (outputStage x s).epos = s.epos ∧
    (outputStage x s).acc = s.acc ∧ (outputStage x s).gate = s.gate ∧
    (outputStage x s).filt = s.filt ∧ (outputStage x s).ovr = s.ovr ∧
    (outputStage x s).cfg = s.cfg ∧ (outputStage x s).pending = s.pending ∧
    (outputStage x s).results = s.results ∧ (outputStage x s).fixedResets = s.fixedResets ∧
    (outputStage x s).fixedReads = s.fixedReads ∧ (outputStage x s).drawn = s.drawn :=
  by simp [outputStage]

/-- Mix changes the filters and `SAMPLE` alone (R195). -/
@[simp] theorem mix_frame (s : State) :
    (mix s).regs = s.regs ∧ (mix s).latch = s.latch ∧ (mix s).tc = s.tc ∧ (mix s).te = s.te ∧
    (mix s).tr = s.tr ∧ (mix s).nc = s.nc ∧ (mix s).lfsr = s.lfsr ∧ (mix s).nh = s.nh ∧
    (mix s).nm = s.nm ∧ (mix s).ec = s.ec ∧ (mix s).epos = s.epos ∧ (mix s).acc = s.acc ∧
    (mix s).gate = s.gate ∧ (mix s).filt = s.filt ∧ (mix s).ovr = s.ovr ∧ (mix s).cfg = s.cfg ∧
    (mix s).pending = s.pending ∧ (mix s).results = s.results ∧
    (mix s).fixedResets = s.fixedResets ∧ (mix s).fixedReads = s.fixedReads ∧
    (mix s).drawn = s.drawn :=
  by simp [mix]

/-- The tick loop of CLOCK changes the generators, `GATE` and `ACC` alone (R214). -/
@[simp] theorem clockTicks_frame (fuel : Nat) (s : State) :
    (clockTicks fuel s).regs = s.regs ∧ (clockTicks fuel s).latch = s.latch ∧
    (clockTicks fuel s).tr = s.tr ∧ (clockTicks fuel s).dch = s.dch ∧
    (clockTicks fuel s).dci = s.dci ∧ (clockTicks fuel s).dcs = s.dcs ∧
    (clockTicks fuel s).fy1 = s.fy1 ∧ (clockTicks fuel s).fy2 = s.fy2 ∧
    (clockTicks fuel s).filt = s.filt ∧ (clockTicks fuel s).ovr = s.ovr ∧
    (clockTicks fuel s).sample = s.sample ∧ (clockTicks fuel s).cfg = s.cfg ∧
    (clockTicks fuel s).pending = s.pending ∧ (clockTicks fuel s).results = s.results ∧
    (clockTicks fuel s).fixedResets = s.fixedResets ∧
    (clockTicks fuel s).fixedReads = s.fixedReads ∧ (clockTicks fuel s).drawn = s.drawn :=
  by
  induction fuel generalizing s with
  | zero => simp [clockTicks]
  | succ n ih => unfold clockTicks; dsimp only; split <;> simp [ih]

end Machine

end Sys2Proof
end

