-- ==== Sys2Proof/Laws/Regs.lean ====
section
/-!
SUPPORT. The register file: what a write stores and what else it does, once for every caller, and that
the derived values depend on the register file alone.
-/

namespace Sys2Proof.Machine

/-! ## The derived values are functions of the register file (spec/10_state.md R27) -/

theorem State.reg_congr {s t : State} (h : t.regs = s.regs) (i : Fin 16) : t.reg i = s.reg i := by
  simp [State.reg, h]

theorem State.tp_congr {s t : State} (h : t.regs = s.regs) (ch : Channel) : t.tp ch = s.tp ch := by
  simp [State.tp, State.reg_congr h]

theorem State.np_congr {s t : State} (h : t.regs = s.regs) : t.np = s.np := by
  simp [State.np, State.reg_congr h]

theorem State.ep_congr {s t : State} (h : t.regs = s.regs) : t.ep = s.ep := by
  simp [State.ep, State.reg_congr h]

theorem State.eoff_congr {s t : State} (h : t.regs = s.regs) : t.eoff = s.eoff := by
  simp [State.eoff, State.shape, State.reg_congr h]

theorem State.toneOff_congr {s t : State} (h : t.regs = s.regs) (ch : Channel) :
    t.toneOff ch = s.toneOff ch := by
  cases ch <;> simp [State.toneOff, State.reg_congr h]

theorem State.noiseOff_congr {s t : State} (h : t.regs = s.regs) (ch : Channel) :
    t.noiseOff ch = s.noiseOff ch := by
  cases ch <;> simp [State.noiseOff, State.reg_congr h]

theorem State.tem_congr {s t : State} (h : t.regs = s.regs) : t.tem = s.tem := by
  simp [State.tem, State.toneOff_congr h]

theorem State.nem_congr {s t : State} (h : t.regs = s.regs) : t.nem = s.nem := by
  simp [State.nem, State.noiseOff_congr h]

/-! ## Storing a register (spec/45_register_access.md R236) -/

theorem reg_storeReg (i j : Fin 16) (d : Byte) (s : State) :
    (storeReg i d s).reg j = if j = i then d &&& regMask[i] else s.reg j := by
  by_cases h : j = i
  · subst h
    simp [State.reg, storeReg]
  · have h' : (i : Nat) ≠ j := fun e => h (Fin.ext e.symm)
    simp [State.reg, storeReg, h, h']

theorem writeEffect_regs (i : Fin 16) (s : State) : (writeEffect i s).regs = s.regs := by simp

/-- WriteReg at a mapped address stores the masked byte and performs the side effect (R236). -/
theorem writeReg_of_lt {a : Byte} (h : a.toNat < 16) (d : Byte) (s : State) :
    writeReg a d s = writeEffect ⟨a.toNat, h⟩ (storeReg ⟨a.toNat, h⟩ d s) := by
  simp [writeReg, h]

/-- WriteReg at an unmapped address does nothing (R248). -/
theorem writeReg_of_ge {a : Byte} (h : 16 ≤ a.toNat) (d : Byte) (s : State) :
    writeReg a d s = s := by
  simp [writeReg, Nat.not_lt.mpr h]

theorem writeEffect_shape (s : State) : writeEffect 13 s = envRestart s := by simp [writeEffect]

theorem writeEffect_of_ne {i : Fin 16} (h : i ≠ 13) (s : State) : writeEffect i s = s := by
  simp [writeEffect, h]

/-- Every register after WriteReg. -/
theorem reg_writeReg (a d : Byte) (s : State) (j : Fin 16) :
    (writeReg a d s).reg j = if a.toNat = j then d &&& regMask[j] else s.reg j := by
  by_cases h : a.toNat < 16
  · rw [writeReg_of_lt h, State.reg_congr (writeEffect_regs _ _), reg_storeReg]
    by_cases e : a.toNat = j
    · have e' : j = ⟨a.toNat, h⟩ := Fin.ext e.symm
      subst e'
      simp
    · have e' : j ≠ ⟨a.toNat, h⟩ := fun x => e (by simp [x])
      simp [e, e']
  · have e : a.toNat ≠ j := by omega
    rw [writeReg_of_ge (by omega)]
    simp [e]

/-! ## The storage masks hold what they mask (spec/10_state.md R21) -/

theorem masked_of_and (d m : Byte) : (d &&& m) &&& ~~~m = 0 := by
  ext i hi
  simp

/-- A write keeps every register inside its mask. -/
theorem writeReg_masked {s : State} (h : ∀ i : Fin 16, s.reg i &&& ~~~regMask[i] = 0) (a d : Byte)
    (i : Fin 16) : (writeReg a d s).reg i &&& ~~~regMask[i] = 0 := by
  rw [reg_writeReg]
  split
  · exact masked_of_and _ _
  · exact h i

/-! ## The loop of LOADREGS (spec/45_register_access.md R250) -/

/-- One step of the loop, register by register. -/
theorem reg_loadReg (f : Vector Byte 16) (s : State) (i j : Fin 16) :
    (loadReg f s i).reg j =
      if j = i then (if i = 13 ∧ f[i] = 0xFF then s.reg i else f[i] &&& regMask[i]) else s.reg j := by
  unfold loadReg
  have hi : (BitVec.ofNat 8 i.val).toNat = i.val := by
    simp only [BitVec.toNat_ofNat]
    exact Nat.mod_eq_of_lt (by omega)
  by_cases e : j = i
  · subst e
    split
    · simp
    · rw [reg_writeReg]
      simp [hi]
  · have e' : i.val ≠ j.val := fun x => e (Fin.ext x.symm)
    rw [if_neg e]
    split
    · rfl
    · rw [reg_writeReg]
      simp [hi, e']

end Sys2Proof.Machine
end

