-- ==== Sys2Proof/Laws/Masks.lean ====
section
/-!
SUPPORT. The 15-bit masks field by field: bitwise operations act on each channel's field, and two masks
with equal fields are equal.
-/

namespace Sys2Proof.Machine

@[simp] theorem fieldOf_xor (u v : Mask15) (ch : Channel) :
    fieldOf (u ^^^ v) ch = fieldOf u ch ^^^ fieldOf v ch := by
  cases ch <;> simp [fieldOf, BitVec.extractLsb'_xor]

@[simp] theorem fieldOf_or (u v : Mask15) (ch : Channel) :
    fieldOf (u ||| v) ch = fieldOf u ch ||| fieldOf v ch := by
  cases ch <;> simp [fieldOf, BitVec.extractLsb'_or]

@[simp] theorem fieldOf_and (u v : Mask15) (ch : Channel) :
    fieldOf (u &&& v) ch = fieldOf u ch &&& fieldOf v ch := by
  cases ch <;> simp [fieldOf, BitVec.extractLsb'_and]

@[simp] theorem fieldOf_zero (ch : Channel) : fieldOf 0#15 ch = 0#5 := by cases ch <;> rfl

theorem fieldOf_fieldMask (ch ch' : Channel) :
    fieldOf (fieldMask ch) ch' = if ch' = ch then 0x1F else 0 := by
  cases ch <;> cases ch' <;> rfl

theorem fieldOf_fieldIf (b : Bool) (ch ch' : Channel) :
    fieldOf (fieldIf b ch) ch' = if b ∧ ch' = ch then 0x1F else 0 := by
  cases b <;> simp [fieldIf, fieldOf_fieldMask]

/-- `TEM` field by field (spec/10_state.md R27). -/
theorem fieldOf_tem (s : State) (ch : Channel) :
    fieldOf s.tem ch = if s.toneOff ch then 0x1F else 0 := by
  cases ch <;> simp [State.tem, fieldOf_fieldIf]

/-- `NEM` field by field (spec/10_state.md R27). -/
theorem fieldOf_nem (s : State) (ch : Channel) :
    fieldOf s.nem ch = if s.noiseOff ch then 0x1F else 0 := by
  cases ch <;> simp [State.nem, fieldOf_fieldIf]

theorem mask15_eq_append (v : Mask15) : v = fieldOf v .c ++ fieldOf v .b ++ fieldOf v .a := by
  apply BitVec.eq_of_getLsbD_eq
  intro i hi
  simp only [fieldOf, BitVec.getLsbD_append, BitVec.getLsbD_extractLsb']
  by_cases h1 : i < 5
  · simp [h1]
  · by_cases h2 : i - 5 < 5
    · simp [h1, h2, show 5 + (i - 5) = i by omega]
    · simp [h1, h2, show 10 + (i - 5 - 5) = i by omega, show i - 5 - 5 < 5 by omega]

/-- Masks with equal fields are equal. -/
theorem mask15_ext {u v : Mask15} (h : ∀ ch, fieldOf u ch = fieldOf v ch) : u = v := by
  rw [mask15_eq_append u, mask15_eq_append v, h .a, h .b, h .c]

/-- Both noise masks have equal fields (spec/41_noise.md R133). -/
theorem fieldOf_noiseMask (b : Bool) (ch : Channel) :
    fieldOf (noiseMaskOf b) ch = if b then 0x1F else 0 := by
  cases b <;> cases ch <;> rfl

end Sys2Proof.Machine
end

