-- ==== Sys2Proof/Laws/PerInstr.lean ====
section
/-!
SUPPORT. One statement per instruction: the operation word the encoder writes belongs to the
instruction's own row of the opcode table (spec/opcode_table.json, spec/30_encoding.md R92).
-/

namespace Sys2Proof.Laws

/-- An operation word belongs to a row when each of its fields does. -/
theorem row_has {m p : Word} {o a d : Byte} (ho : o &&& opField m = opField p)
    (ha : a &&& aField m = aField p) (hd : d &&& dField m = dField p) (hz : zField p = 0) :
    TableRow.has ⟨m, p⟩ (opWord o a d) = true := by
  have fo : opField (opWord o a d &&& m) = opField p := by
    rw [← ho]
    conv_rhs => rw [← opField_opWord o a d]
    simp only [opField, BitVec.extractLsb'_and]
  have fa : aField (opWord o a d &&& m) = aField p := by
    rw [← ha]
    conv_rhs => rw [← aField_opWord o a d]
    simp only [aField, BitVec.extractLsb'_and]
  have fd : dField (opWord o a d &&& m) = dField p := by
    rw [← hd]
    conv_rhs => rw [← dField_opWord o a d]
    simp only [dField, BitVec.extractLsb'_and]
  have fz : zField (opWord o a d &&& m) = zField p := by
    have h := zField_opWord o a d
    simp only [zField] at h hz ⊢
    rw [BitVec.extractLsb'_and, h, hz]
    simp
  simp only [TableRow.has, decide_eq_true_eq]
  rw [word_eq_fields (opWord o a d &&& m), fo, fa, fd, fz, ← word_eq_fields]

/-- The first word of the encoding is in the row. -/
def RowMatch.Statement (i : Instr) : Prop :=
  i.wf = true → ∃ w ws, encode i = w :: ws ∧ (tableRow i).has w = true

theorem RowMatch.nop : RowMatch.Statement .nop :=
  fun _ => ⟨_, _, rfl, row_has (by decide) (by decide) (by decide) (by decide)⟩

theorem RowMatch.latch (a : Byte) : RowMatch.Statement (.latch a) :=
  fun _ => ⟨_, _, rfl, row_has (by decide) (by revert a; decide) (by decide) (by decide)⟩

theorem RowMatch.wrdata (d : Byte) : RowMatch.Statement (.wrdata d) :=
  fun _ => ⟨_, _, rfl, row_has (by decide) (by decide) (by revert d; decide) (by decide)⟩

theorem RowMatch.rddata : RowMatch.Statement .rddata :=
  fun _ => ⟨_, _, rfl, row_has (by decide) (by decide) (by decide) (by decide)⟩

theorem RowMatch.wrregR0 (d : Byte) : RowMatch.Statement (.wrregR0 d) :=
  fun _ => ⟨_, _, rfl, row_has (by decide) (by decide) (by revert d; decide) (by decide)⟩

theorem RowMatch.wrregR1 (d : Byte) : RowMatch.Statement (.wrregR1 d) :=
  fun _ => ⟨_, _, rfl, row_has (by decide) (by decide) (by revert d; decide) (by decide)⟩

theorem RowMatch.wrregR2 (d : Byte) : RowMatch.Statement (.wrregR2 d) :=
  fun _ => ⟨_, _, rfl, row_has (by decide) (by decide) (by revert d; decide) (by decide)⟩

theorem RowMatch.wrregR3 (d : Byte) : RowMatch.Statement (.wrregR3 d) :=
  fun _ => ⟨_, _, rfl, row_has (by decide) (by decide) (by revert d; decide) (by decide)⟩

theorem RowMatch.wrregR4 (d : Byte) : RowMatch.Statement (.wrregR4 d) :=
  fun _ => ⟨_, _, rfl, row_has (by decide) (by decide) (by revert d; decide) (by decide)⟩

theorem RowMatch.wrregR5 (d : Byte) : RowMatch.Statement (.wrregR5 d) :=
  fun _ => ⟨_, _, rfl, row_has (by decide) (by decide) (by revert d; decide) (by decide)⟩

theorem RowMatch.wrregR6 (d : Byte) : RowMatch.Statement (.wrregR6 d) :=
  fun _ => ⟨_, _, rfl, row_has (by decide) (by decide) (by revert d; decide) (by decide)⟩

theorem RowMatch.wrregR7 (d : Byte) : RowMatch.Statement (.wrregR7 d) :=
  fun _ => ⟨_, _, rfl, row_has (by decide) (by decide) (by revert d; decide) (by decide)⟩

theorem RowMatch.wrregR8 (d : Byte) : RowMatch.Statement (.wrregR8 d) :=
  fun _ => ⟨_, _, rfl, row_has (by decide) (by decide) (by revert d; decide) (by decide)⟩

theorem RowMatch.wrregR9 (d : Byte) : RowMatch.Statement (.wrregR9 d) :=
  fun _ => ⟨_, _, rfl, row_has (by decide) (by decide) (by revert d; decide) (by decide)⟩

theorem RowMatch.wrregR10 (d : Byte) : RowMatch.Statement (.wrregR10 d) :=
  fun _ => ⟨_, _, rfl, row_has (by decide) (by decide) (by revert d; decide) (by decide)⟩

theorem RowMatch.wrregR11 (d : Byte) : RowMatch.Statement (.wrregR11 d) :=
  fun _ => ⟨_, _, rfl, row_has (by decide) (by decide) (by revert d; decide) (by decide)⟩

theorem RowMatch.wrregR12 (d : Byte) : RowMatch.Statement (.wrregR12 d) :=
  fun _ => ⟨_, _, rfl, row_has (by decide) (by decide) (by revert d; decide) (by decide)⟩

theorem RowMatch.wrregR13 (d : Byte) : RowMatch.Statement (.wrregR13 d) :=
  fun _ => ⟨_, _, rfl, row_has (by decide) (by decide) (by revert d; decide) (by decide)⟩

theorem RowMatch.wrregR14 (d : Byte) : RowMatch.Statement (.wrregR14 d) :=
  fun _ => ⟨_, _, rfl, row_has (by decide) (by decide) (by revert d; decide) (by decide)⟩

theorem RowMatch.wrregR15 (d : Byte) : RowMatch.Statement (.wrregR15 d) :=
  fun _ => ⟨_, _, rfl, row_has (by decide) (by decide) (by revert d; decide) (by decide)⟩

theorem RowMatch.wrregOor128 (a : Byte) (d : Byte) : RowMatch.Statement (.wrregOor128 a d) := by
  intro h
  simp only [Instr.wf, decide_eq_true_eq] at h
  refine ⟨_, _, rfl, row_has (by decide) ?_ ?_ (by decide)⟩
  · revert a
    decide
  · clear h
    revert d
    decide

theorem RowMatch.wrregOor64 (a : Byte) (d : Byte) : RowMatch.Statement (.wrregOor64 a d) := by
  intro h
  simp only [Instr.wf, Bool.and_eq_true, decide_eq_true_eq] at h
  refine ⟨_, _, rfl, row_has (by decide) ?_ ?_ (by decide)⟩
  · revert a
    decide
  · clear h
    revert d
    decide

theorem RowMatch.wrregOor32 (a : Byte) (d : Byte) : RowMatch.Statement (.wrregOor32 a d) := by
  intro h
  simp only [Instr.wf, Bool.and_eq_true, decide_eq_true_eq] at h
  refine ⟨_, _, rfl, row_has (by decide) ?_ ?_ (by decide)⟩
  · revert a
    decide
  · clear h
    revert d
    decide

theorem RowMatch.wrregOor16 (a : Byte) (d : Byte) : RowMatch.Statement (.wrregOor16 a d) := by
  intro h
  simp only [Instr.wf, Bool.and_eq_true, decide_eq_true_eq] at h
  refine ⟨_, _, rfl, row_has (by decide) ?_ ?_ (by decide)⟩
  · revert a
    decide
  · clear h
    revert d
    decide

theorem RowMatch.rdreg (a : Byte) : RowMatch.Statement (.rdreg a) :=
  fun _ => ⟨_, _, rfl, row_has (by decide) (by revert a; decide) (by decide) (by decide)⟩

theorem RowMatch.clock : RowMatch.Statement .clock :=
  fun _ => ⟨_, _, rfl, row_has (by decide) (by decide) (by decide) (by decide)⟩

theorem RowMatch.getsample : RowMatch.Statement .getsample :=
  fun _ => ⟨_, _, rfl, row_has (by decide) (by decide) (by decide) (by decide)⟩

theorem RowMatch.loadregs (v0 : Word) (v1 : Word) (v2 : Word) (v3 : Word) : RowMatch.Statement (.loadregs v0 v1 v2 v3) :=
  fun _ => ⟨_, _, rfl, row_has (by decide) (by decide) (by decide) (by decide)⟩

theorem RowMatch.dumpregs : RowMatch.Statement .dumpregs :=
  fun _ => ⟨_, _, rfl, row_has (by decide) (by decide) (by decide) (by decide)⟩

theorem RowMatch.setfilter (on : Bool) : RowMatch.Statement (.setfilter on) :=
  fun _ => ⟨_, _, rfl, row_has (by decide) (by decide) (by revert on; decide) (by decide)⟩

theorem RowMatch.toneresetA : RowMatch.Statement .toneresetA :=
  fun _ => ⟨_, _, rfl, row_has (by decide) (by decide) (by decide) (by decide)⟩

theorem RowMatch.toneresetB : RowMatch.Statement .toneresetB :=
  fun _ => ⟨_, _, rfl, row_has (by decide) (by decide) (by decide) (by decide)⟩

theorem RowMatch.toneresetC : RowMatch.Statement .toneresetC :=
  fun _ => ⟨_, _, rfl, row_has (by decide) (by decide) (by decide) (by decide)⟩

theorem RowMatch.envtrig : RowMatch.Statement .envtrig :=
  fun _ => ⟨_, _, rfl, row_has (by decide) (by decide) (by decide) (by decide)⟩

theorem RowMatch.setovrA (l : Level) : RowMatch.Statement (.setovrA l) :=
  fun _ => ⟨_, _, rfl, row_has (by decide) (by decide) (by revert l; decide) (by decide)⟩

theorem RowMatch.setovrB (l : Level) : RowMatch.Statement (.setovrB l) :=
  fun _ => ⟨_, _, rfl, row_has (by decide) (by decide) (by revert l; decide) (by decide)⟩

theorem RowMatch.setovrC (l : Level) : RowMatch.Statement (.setovrC l) :=
  fun _ => ⟨_, _, rfl, row_has (by decide) (by decide) (by revert l; decide) (by decide)⟩

theorem RowMatch.clrovrA : RowMatch.Statement .clrovrA :=
  fun _ => ⟨_, _, rfl, row_has (by decide) (by decide) (by decide) (by decide)⟩

theorem RowMatch.clrovrB : RowMatch.Statement .clrovrB :=
  fun _ => ⟨_, _, rfl, row_has (by decide) (by decide) (by decide) (by decide)⟩

theorem RowMatch.clrovrC : RowMatch.Statement .clrovrC :=
  fun _ => ⟨_, _, rfl, row_has (by decide) (by decide) (by decide) (by decide)⟩

theorem RowMatch.reset : RowMatch.Statement .reset :=
  fun _ => ⟨_, _, rfl, row_has (by decide) (by decide) (by decide) (by decide)⟩

end Sys2Proof.Laws
end

