-- ==== Sys2Proof/Laws/Tick.lean ====
section
/-!
SUPPORT. What one internal tick does to each generator (spec/44_clock_divider.md R213): the three
generator steps share no state, so each field after a tick is its own generator's rule applied to the
state before the tick.
-/

namespace Sys2Proof.Machine

/-! ## Tone (spec/40_tone.md R110) -/

theorem toneStep_tc (ch ch' : Channel) (s : State) :
    (toneStep ch s).tc.get ch' =
      if ch' = ch then (if s.tc.get ch + 1 ≥ (s.tp ch).toNat then 0 else s.tc.get ch + 1)
      else s.tc.get ch' := by
  unfold toneStep
  split <;> simp_all [PerChannel.get_set]

theorem toneStep_te (ch ch' : Channel) (s : State) :
    fieldOf (toneStep ch s).te ch' =
      if ch' = ch ∧ s.tc.get ch + 1 ≥ (s.tp ch).toNat then fieldOf s.te ch' ^^^ 0x1F
      else fieldOf s.te ch' := by
  unfold toneStep
  split <;> simp_all [fieldOf_fieldMask]
  split <;> simp_all

theorem toneStep_tp (ch ch' : Channel) (s : State) : (toneStep ch s).tp ch' = s.tp ch' :=
  State.tp_congr (by simp) ch'

/-- Every tone counter after the tone tick. -/
theorem toneTick_tc (s : State) (ch : Channel) :
    (toneTick s).tc.get ch =
      if s.tc.get ch + 1 ≥ (s.tp ch).toNat then 0 else s.tc.get ch + 1 := by
  cases ch <;> simp [toneTick, toneStep_tc, toneStep_tp]

/-- Every edge field after the tone tick. -/
theorem toneTick_te (s : State) (ch : Channel) :
    fieldOf (toneTick s).te ch =
      if s.tc.get ch + 1 ≥ (s.tp ch).toNat then fieldOf s.te ch ^^^ 0x1F else fieldOf s.te ch := by
  cases ch <;> simp [toneTick, toneStep_te, toneStep_tc, toneStep_tp]

/-! ## The generators inside a tick -/

theorem tick_tc (s : State) : (tick s).tc = (toneTick s).tc := by simp [tick]

theorem tick_te (s : State) : (tick s).te = (toneTick s).te := by simp [tick]

/-- The noise generator after a tick is its own tick's. -/
theorem noiseTick_toneTick (s : State) :
    (noiseTick (toneTick s)).nc = (noiseTick s).nc ∧
    (noiseTick (toneTick s)).lfsr = (noiseTick s).lfsr ∧
    (noiseTick (toneTick s)).nh = (noiseTick s).nh ∧
    (noiseTick (toneTick s)).nm = (noiseTick s).nm := by
  have h : (toneTick s).np = s.np := State.np_congr (by simp)
  unfold noiseTick
  simp only [h, toneTick_frame]
  split <;> (try split) <;> simp

theorem tick_nc (s : State) : (tick s).nc = (noiseTick s).nc := by
  simp [tick, (noiseTick_toneTick s).1]

theorem tick_lfsr (s : State) : (tick s).lfsr = (noiseTick s).lfsr := by
  simp [tick, (noiseTick_toneTick s).2.1]

theorem tick_nh (s : State) : (tick s).nh = (noiseTick s).nh := by
  simp [tick, (noiseTick_toneTick s).2.2.1]

theorem tick_nm (s : State) : (tick s).nm = (noiseTick s).nm := by
  simp [tick, (noiseTick_toneTick s).2.2.2]

/-- The envelope generator depends on its own state and the register file alone. -/
theorem envTick_congr {s t : State} (hr : t.regs = s.regs) (hc : t.ec = s.ec)
    (hp : t.epos = s.epos) : (envTick t).ec = (envTick s).ec ∧ (envTick t).epos = (envTick s).epos := by
  have h : t.ep = s.ep := State.ep_congr hr
  unfold envTick
  simp only [h, hc, hp]
  split <;> simp

theorem tick_ec (s : State) : (tick s).ec = (envTick s).ec := by
  simp [tick, (envTick_congr (s := s) (t := noiseTick (toneTick s)) (by simp) (by simp) (by simp)).1]

theorem tick_epos (s : State) : (tick s).epos = (envTick s).epos := by
  simp [tick, (envTick_congr (s := s) (t := noiseTick (toneTick s)) (by simp) (by simp) (by simp)).2]

/-- The gate after a tick takes in the mask of the state the generators are left in
(spec/43_mixer_output.md R180, R181). -/
theorem tick_gate (s : State) : (tick s).gate = s.gate ||| (tick s).gateMask := by
  have ht : (tick s).tem = (envTick (noiseTick (toneTick s))).tem :=
    State.tem_congr (by simp [tick])
  have hn : (tick s).nem = (envTick (noiseTick (toneTick s))).nem :=
    State.nem_congr (by simp [tick])
  have h : (tick s).gateMask = (envTick (noiseTick (toneTick s))).gateMask := by
    unfold State.gateMask
    rw [ht, hn]
    simp [tick]
  rw [h]
  simp [tick]

/-- The register file is not touched by any number of ticks. -/
theorem tick_iterate_regs (n : Nat) (s : State) : (tick^[n] s).regs = s.regs := by
  induction n generalizing s with
  | zero => rfl
  | succ n ih => simp [Function.iterate_succ_apply, ih]

/-! ## The deferred resets (spec/40_tone.md R113) -/

theorem resolveToneResets_tc (s : State) (ch : Channel) :
    (resolveToneResets s).tc.get ch = if s.tr.get ch then 0 else s.tc.get ch := by
  cases ch <;> simp only [resolveToneResets, resolveToneReset] <;>
    split <;> split <;> split <;> simp_all

theorem resolveToneResets_tr (s : State) (ch : Channel) :
    (resolveToneResets s).tr.get ch = false := by
  cases ch <;> simp only [resolveToneResets, resolveToneReset] <;>
    split <;> split <;> split <;> simp_all

end Sys2Proof.Machine
end

