-- ==== Sys2Proof/Tests/Slice0.lean ====
section
/-!
SUPPORT. Tests on single operations and single ticks, with expected results from spec/ only (each names
its source), and for every obligation with hypotheses a witness that meets them.
-/

namespace Sys2Proof.Tests

open Sys2Proof.Machine

/-! ## Helpers -/

/-- The common start state of spec/95_test_vectors.md: defaults, seed 1, edges 0x00. -/
def testStart : State := State.initial Config.default ResetDraw.testDefault

/-- A configuration with a short DC window (spec/95_test_vectors.md 2.6, W = 4). -/
def smallCfg : Config := { Config.default with dcWindow := 4 }

/-- A small state: the start state of `smallCfg`. -/
def small : State := State.initial smallCfg ResetDraw.testDefault

/-- The state an operation leaves. -/
def after (i : Instr) (s : State) : State :=
  match exec i s with
  | .next t => t
  | .fault _ => s
  | .refused _ => s

/-- The step or operation completes. -/
def completes : Host.Outcome State Fault Refusal → Bool
  | .next _ => true
  | .fault _ => false
  | .refused _ => false

theorem exists_next {o : Host.Outcome State Fault Refusal} (h : completes o = true) :
    ∃ t, o = .next t := by
  cases o with
  | next t => exact ⟨t, rfl⟩
  | fault f => cases h
  | refused r => cases h

/-- The refusal of a step, if it is one. -/
def refusal : Host.Outcome State Fault Refusal → Option Refusal
  | .next _ => none
  | .fault _ => none
  | .refused r => some r

/-- The registers written. -/
def withRegs (l : List (Fin 16 × Byte)) (s : State) : State :=
  l.foldl (fun s p => { s with regs := s.regs.set p.1 p.2 }) s

/-- The words of a line of assembler text (spec/30_encoding.md R89). -/
def asm (text : String) : Option (List Word) := assembleWords text.toList

/-! ## Well-formedness: each check refuses an ill-formed term (spec/30_encoding.md R92) -/

theorem test_wf_oor128_refuses_below_range :
    (Instr.wrregOor128 127 0).wf = false := by decide

theorem test_wf_oor64_refuses_outside_range :
    (Instr.wrregOor64 63 0).wf = false ∧ (Instr.wrregOor64 128 0).wf = false := by decide

theorem test_wf_oor32_refuses_outside_range :
    (Instr.wrregOor32 31 0).wf = false ∧ (Instr.wrregOor32 64 0).wf = false := by decide

theorem test_wf_oor16_refuses_outside_range :
    (Instr.wrregOor16 15 0).wf = false ∧ (Instr.wrregOor16 32 0).wf = false := by decide

/-! ## Decoding: words written out from spec/30_encoding.md R81, R82 and spec/95_test_vectors.md 2.1 -/

theorem test_decode_bare_operations :
    decode [0x00000000] = .instr .nop [] ∧
    decode [0x03000000] = .instr .rddata [] ∧
    decode [0x06000000] = .instr .clock [] ∧
    decode [0x07000000] = .instr .getsample [] ∧
    decode [0x09000000] = .instr .dumpregs [] ∧
    decode [0x0C000000] = .instr .envtrig [] ∧
    decode [0x0F000000] = .instr .reset [] := by decide

theorem test_decode_addressed_operations :
    decode [0x01FF0000] = .instr (.latch 255) [] ∧
    decode [0x02005500] = .instr (.wrdata 0x55) [] ∧
    decode [0x05100000] = .instr (.rdreg 16) [] := by decide

/-- `wrreg i, 0xA0 + i`. -/
theorem test_decode_wrreg_low_rows :
    decode [0x0400A000] = .instr (.wrregR0 0xA0) [] ∧
    decode [0x0401A100] = .instr (.wrregR1 0xA1) [] ∧
    decode [0x0402A200] = .instr (.wrregR2 0xA2) [] ∧
    decode [0x0403A300] = .instr (.wrregR3 0xA3) [] ∧
    decode [0x0404A400] = .instr (.wrregR4 0xA4) [] ∧
    decode [0x0405A500] = .instr (.wrregR5 0xA5) [] ∧
    decode [0x0406A600] = .instr (.wrregR6 0xA6) [] ∧
    decode [0x0407A700] = .instr (.wrregR7 0xA7) [] := by decide

theorem test_decode_wrreg_high_rows :
    decode [0x0408A800] = .instr (.wrregR8 0xA8) [] ∧
    decode [0x0409A900] = .instr (.wrregR9 0xA9) [] ∧
    decode [0x040AAA00] = .instr (.wrregR10 0xAA) [] ∧
    decode [0x040BAB00] = .instr (.wrregR11 0xAB) [] ∧
    decode [0x040CAC00] = .instr (.wrregR12 0xAC) [] ∧
    decode [0x040DAD00] = .instr (.wrregR13 0xAD) [] ∧
    decode [0x040EAE00] = .instr (.wrregR14 0xAE) [] ∧
    decode [0x040FAF00] = .instr (.wrregR15 0xAF) [] := by decide

theorem test_decode_wrreg_out_of_range_rows :
    decode [0x04FF0100] = .instr (.wrregOor128 255 1) [] ∧
    decode [0x04800100] = .instr (.wrregOor128 128 1) [] ∧
    decode [0x047F0100] = .instr (.wrregOor64 127 1) [] ∧
    decode [0x04400100] = .instr (.wrregOor64 64 1) [] ∧
    decode [0x043F0100] = .instr (.wrregOor32 63 1) [] ∧
    decode [0x04200100] = .instr (.wrregOor32 32 1) [] ∧
    decode [0x041F0100] = .instr (.wrregOor16 31 1) [] ∧
    decode [0x04105500] = .instr (.wrregOor16 16 0x55) [] := by decide

theorem test_decode_control_operations :
    decode [0x0A000000] = .instr (.setfilter false) [] ∧
    decode [0x0A000100] = .instr (.setfilter true) [] ∧
    decode [0x0B000000] = .instr .toneresetA [] ∧
    decode [0x0B010000] = .instr .toneresetB [] ∧
    decode [0x0B020000] = .instr .toneresetC [] ∧
    decode [0x0D001F00] = .instr (.setovrA 31) [] ∧
    decode [0x0D011100] = .instr (.setovrB 17) [] ∧
    decode [0x0D021F00] = .instr (.setovrC 31) [] ∧
    decode [0x0E000000] = .instr .clrovrA [] ∧
    decode [0x0E010000] = .instr .clrovrB [] ∧
    decode [0x0E020000] = .instr .clrovrC [] := by decide

theorem test_decode_loadregs_takes_five_words :
    decode [0x08000000, 0x03020100, 0x07060504, 0x0B0A0908, 0x0F0E0D0C, 0x06000000]
      = .instr (.loadregs 0x03020100 0x07060504 0x0B0A0908 0x0F0E0D0C) [0x06000000] := by decide

/-- spec/30_encoding.md R91: F[i] = i. -/
theorem test_frame_bytes :
    frameOfWords 0x03020100 0x07060504 0x0B0A0908 0x0F0E0D0C
      = #v[0, 1, 2, 3, 4, 5, 6, 7, 8, 9, 10, 11, 12, 13, 14, 15] := by decide

/-- The illegal words of spec/95_test_vectors.md 2.1. -/
theorem test_decode_rejects_illegal_words :
    decode [0x0400FF01] = .reject (.illegal .reservedByte) ∧
    decode [0x06010000] = .reject (.illegal .fieldNotZero) ∧
    decode [0x03000100] = .reject (.illegal .fieldNotZero) ∧
    decode [0x01000100] = .reject (.illegal .fieldNotZero) ∧
    decode [0x0A000200] = .reject (.illegal .badFilter) ∧
    decode [0x0B030000] = .reject (.illegal .badChannel) ∧
    decode [0x0E030000] = .reject (.illegal .badChannel) ∧
    decode [0x0D002000] = .reject (.illegal .badLevel) ∧
    decode [0x0D031F00] = .reject (.illegal .badChannel) ∧
    decode [0x10000000] = .reject (.illegal .reservedOp) ∧
    decode [0xFF000000] = .reject (.illegal .reservedOp) := by decide

theorem test_decode_rejects_truncated_loadregs :
    decode [0x08000000] = .reject .truncatedLoadregs ∧
    decode [0x08000000, 1, 2, 3] = .reject .truncatedLoadregs := by decide

/-- spec/30_encoding.md R84. -/
theorem test_bytes_are_little_endian :
    bytesOfWord 0x04073E00 = [0x00, 0x3E, 0x07, 0x04] ∧
    decodeBytes [0x00, 0x3E, 0x07, 0x04] = .instr (.wrregR7 0x3E) [] ∧
    decodeBytes [0x00, 0x3E, 0x07] = .reject .partialWord := by decide

theorem test_decodeTableWord :
    decodeTableWord 32 0x0D021F00 = some (.setovrC 31) ∧
    decodeTableWord 32 0x08000000 = some (.loadregs 0 0 0 0) ∧ decodeTableWord 32 0x10000000 = none := by decide

theorem test_withFetchWord :
    (small.withFetchWord 32 0x06000000).pending = [0x06000000] ∧
    (small.withFetchWord 32 0x08000000).pending = [0x08000000, 0, 0, 0, 0] ∧
    completes (step (small.withFetchWord 32 0x06000000)) = true := by decide

/-! ## Assembler (spec/30_encoding.md R89, R90, R91) -/

theorem test_asm_examples :
    asm "wrreg 7, 0x3e" = some [0x04073E00] ∧
    asm "wrreg r1, 0x01 ; tone A coarse" = some [0x04010100] ∧
    asm "latch 13" = some [0x010D0000] ∧
    asm "wrdata 0x0e" = some [0x02000E00] ∧
    asm "clock" = some [0x06000000] ∧
    asm "setovr b, 17" = some [0x0D011100] ∧
    asm "setfilter 1" = some [0x0A000100] ∧
    asm "reset" = some [0x0F000000] := by decide

theorem test_asm_loadregs :
    asm "loadregs 0,1,2,3,4,5,6,7,8,9,10,11,12,13,14,15"
      = some [0x08000000, 0x03020100, 0x07060504, 0x0B0A0908, 0x0F0E0D0C] := by decide

/-- R90, with the tone period 284 and envelope period 4096 of spec/95_test_vectors.md 2.2. -/
theorem test_asm_pseudo :
    asm "settone a, 284" = some [0x04001C00, 0x04010100] ∧
    asm "setenv 4096" = some [0x040B0000, 0x040C1000] ∧
    asm "clockn 3" = some [0x06000000, 0x06000000, 0x06000000] ∧
    asm "sample" = some [0x06000000, 0x07000000] := by decide

theorem test_asm_errors :
    asm "settone a, 4096" = none ∧
    asm "setnoise 32" = none ∧
    asm "setovr d, 1" = none ∧
    asm "setovr a, 32" = none ∧
    asm "latch 256" = none ∧
    asm "halt" = none := by decide

/-! ## Register access (spec/45_register_access.md, spec/95_test_vectors.md 2.2) -/

/-- R231. -/
theorem test_latch :
    (after (.latch 13) small).latch = 13 := by decide

/-- R232. -/
theorem test_wrdata_masks :
    (after (.wrdata 0xFF) { small with latch := 1 }).reg 1 = 0x0F := by decide

/-- `latch 20`, `wrdata 0x55`. -/
theorem test_wrdata_out_of_range :
    (after (.wrdata 0x55) { small with latch := 20 }) = { small with latch := 20 } := by decide

/-- R233. -/
theorem test_rddata :
    (after .rddata { withRegs [(7, 0x3E)] small with latch := 7 }).results = [.byte 0x3E] := by decide

/-- R230: any byte, here one the host fixes. -/
theorem test_rddata_out_of_range_takes_the_draw :
    (after .rddata { small with latch := 20, fixedReads := [0xA5] }).results = [.byte 0xA5] := by decide

/-- The write masks of 2.2. -/
theorem test_wrreg_masks_low :
    (after (.wrregR0 0xFF) small).reg 0 = 0xFF ∧
    (after (.wrregR1 0xFF) small).reg 1 = 0x0F ∧
    (after (.wrregR2 0xFF) small).reg 2 = 0xFF ∧
    (after (.wrregR3 0xFF) small).reg 3 = 0x0F ∧
    (after (.wrregR4 0xFF) small).reg 4 = 0xFF ∧
    (after (.wrregR5 0xFF) small).reg 5 = 0x0F ∧
    (after (.wrregR6 0xFF) small).reg 6 = 0x1F ∧
    (after (.wrregR7 0xFF) small).reg 7 = 0xFF := by decide

theorem test_wrreg_masks_high :
    (after (.wrregR8 0xFF) small).reg 8 = 0x1F ∧
    (after (.wrregR9 0xFF) small).reg 9 = 0x1F ∧
    (after (.wrregR10 0xFF) small).reg 10 = 0x1F ∧
    (after (.wrregR11 0xFF) small).reg 11 = 0xFF ∧
    (after (.wrregR12 0xFF) small).reg 12 = 0xFF ∧
    (after (.wrregR13 0xFF) small).reg 13 = 0x0F ∧
    (after (.wrregR14 0xFF) small).reg 14 = 0xFF ∧
    (after (.wrregR15 0xFF) small).reg 15 = 0xFF := by decide

/-- R234: TP[0] = 0xA00 | R[0]. -/
theorem test_wrreg_r1_example :
    ((after (.wrregR1 0x5A) (withRegs [(0, 0x1C)] small)).tp .a) = 0xA1C ∧
    (after (.wrregR1 0x5A) small).latch = 1 := by decide

theorem test_wrreg_r13_same_value_restarts :
    (after (.wrregR13 0x0E) { withRegs [(13, 0x0E)] small with epos := 5, ec := 3 }).epos = -64 ∧
    (after (.wrregR13 0x0E) { withRegs [(13, 0x0E)] small with epos := 5, ec := 3 }).ec = 0 := by decide

theorem test_wrreg_r13_has_no_sentinel :
    (after (.wrregR13 0xFF) { small with epos := 5 }).reg 13 = 0x0F ∧
    (after (.wrregR13 0xFF) { small with epos := 5 }).epos = -64 := by decide

theorem test_wrreg_out_of_range :
    after (.wrregOor16 16 0x55) small = { small with latch := 16 } ∧
    after (.wrregOor32 63 0x55) small = { small with latch := 63 } ∧
    after (.wrregOor64 64 0x55) small = { small with latch := 64 } ∧
    after (.wrregOor128 255 1) small = { small with latch := 255 } := by decide

/-- R235. -/
theorem test_rdreg :
    (after (.rdreg 13) (withRegs [(13, 0x0E)] small)).results = [.byte 0x0E] ∧
    (after (.rdreg 13) small).latch = 13 := by decide

theorem test_rdreg_out_of_range_takes_the_draw :
    (after (.rdreg 16) { small with fixedReads := [0x5A] }).results = [.byte 0x5A] := by decide

/-- R250, F[13] = 0xFF. -/
theorem test_loadregs_sentinel :
    (after (.loadregs 0 0 0 0x0000FF00) { withRegs [(13, 0x0A)] small with epos := 7 }).reg 13 = 0x0A ∧
    (after (.loadregs 0 0 0 0x0000FF00) { withRegs [(13, 0x0A)] small with epos := 7 }).epos = 7 := by decide

/-- R250, F[13] = 0xFE. -/
theorem test_loadregs_shape :
    (after (.loadregs 0 0 0 0x0000FE00) { small with epos := 7, latch := 7 }).reg 13 = 0x0E ∧
    (after (.loadregs 0 0 0 0x0000FE00) { small with epos := 7, latch := 7 }).epos = -64 ∧
    (after (.loadregs 0 0 0 0x0000FE00) { small with epos := 7, latch := 7 }).latch = 7 := by decide

/-- R251. -/
theorem test_dumpregs :
    (after .dumpregs (withRegs [(1, 0x0F), (6, 0x1F)] small)).results
      = [.frame #v[0, 0x0F, 0, 0, 0, 0, 0x1F, 0, 0, 0, 0, 0, 0, 0, 0, 0]] := by decide

theorem test_derived_values :
    (withRegs [(11, 0x00), (12, 0x10)] small).ep = 4096 ∧ (withRegs [(0, 0x1C), (1, 0x01)] small).tp .a = 284 ∧
    (withRegs [(7, 0x3E)] small).tem = 0x7FE0 ∧ (withRegs [(7, 0x3E)] small).nem = 0x7FFF := by decide

/-- 2.5. -/
theorem test_shape_offsets :
    ((List.range 16).map fun c => 128 * shapePattern (BitVec.ofNat 4 c))
      = [0, 0, 0, 0, 128, 128, 128, 128, 256, 384, 512, 640, 768, 896, 1024, 1152] := by decide

/-! ## Control operations (spec/46_control_ops.md, spec/95_test_vectors.md 2.8) -/

theorem test_nop :
    after .nop { small with latch := 9 } = { small with latch := 9 } := by decide

theorem test_setfilter :
    (after (.setfilter true) { small with fy1 := 8 }).filt = true ∧
    (after (.setfilter true) { small with fy1 := 8 }).fy1 = 8 ∧
    (after (.setfilter false) { small with filt := true }).filt = false := by decide

theorem test_tonereset :
    (after .toneresetB { small with tc := ⟨0, 35, 0⟩ }).tr = ⟨false, true, false⟩ ∧
    (after .toneresetB { small with tc := ⟨0, 35, 0⟩ }).tc.b = 35 ∧
    (after .toneresetA small).tr = ⟨true, false, false⟩ ∧
    (after .toneresetC small).tr = ⟨false, false, true⟩ := by decide

theorem test_envtrig :
    (after .envtrig { withRegs [(13, 0x0C)] small with epos := 17, ec := 2 })
      = { withRegs [(13, 0x0C)] small with epos := -64, ec := 0 } := by decide

theorem test_setovr :
    (after (.setovrA 1) small).ovr = ⟨some 1, none, none⟩ ∧
    (after (.setovrB 17) small).ovr = ⟨none, some 17, none⟩ ∧
    (after (.setovrC 17) small).ovr = ⟨none, none, some 17⟩ := by decide

theorem test_clrovr :
    (after .clrovrA { small with ovr := ⟨some 1, some 2, some 3⟩ }).ovr = ⟨none, some 2, some 3⟩ ∧
    (after .clrovrB { small with ovr := ⟨some 1, some 2, some 3⟩ }).ovr = ⟨some 1, none, some 3⟩ ∧
    (after .clrovrC { small with ovr := ⟨some 1, some 2, some 3⟩ }).ovr = ⟨some 1, some 2, none⟩ := by decide

/-- R276 with the test draws: LFSR = 0x00001 and TE = 0. -/
theorem test_reset :
    after .reset
        { withRegs [(7, 0x3F)] small with
          latch := 9, tr := ⟨true, true, true⟩, fixedResets := [ResetDraw.testDefault] }
      = small := by decide

/-- The largest seed, and edges 0x1F on A and C. -/
theorem test_reset_draws :
    (after .reset { small with fixedResets := [⟨131070, ⟨true, false, true⟩⟩] }).lfsr = 0x1FFFF ∧
    (after .reset { small with fixedResets := [⟨131070, ⟨true, false, true⟩⟩] }).te = 0x7C1F := by decide

/-! ## Generators, one tick (spec/40_tone.md, spec/41_noise.md, spec/42_envelope.md) -/

/-- R110. -/
theorem test_tone_example :
    (tick { withRegs [(0, 3)] small with tc := ⟨2, 0, 0⟩ }).tc.a = 0 ∧
    fieldOf (tick { withRegs [(0, 3)] small with tc := ⟨2, 0, 0⟩ }).te .a = 0x1F := by decide

/-- 2.3, lowering and raising a period in mid-count. -/
theorem test_tone_lowered_period :
    (tick { withRegs [(0, 40)] small with tc := ⟨60, 0, 0⟩ }).tc.a = 0 ∧
    (tick { withRegs [(0, 200)] small with tc := ⟨60, 0, 0⟩ }).tc.a = 61 := by decide

/-- R130. -/
theorem test_noise_example :
    (tick small).nh = true ∧ (tick small).lfsr = 0x12000 ∧ (tick small).nm = 0x7FFF ∧ (tick small).nc = 0 := by decide

theorem test_noise_inactive_half :
    (tick { small with nh := true }).lfsr = 0x00001 ∧ (tick { small with nh := true }).nh = false := by decide

/-- The seed-1 sequence of R136. -/
theorem test_lfsr_sequence :
    [0x00001, 0x12000, 0x09000, 0x04800, 0x02400, 0x01200, 0x00900, 0x00480, 0x00240, 0x00120,
      0x00090, 0x00048, 0x00024, 0x00012, 0x00009, 0x12004, 0x09002, 0x04801, 0x10400, 0x08200].map lfsrStep
    = [0x12000, 0x09000, 0x04800, 0x02400, 0x01200, 0x00900, 0x00480, 0x00240, 0x00120, 0x00090,
      0x00048, 0x00024, 0x00012, 0x00009, 0x12004, 0x09002, 0x04801, 0x10400, 0x08200, 0x04100] := by decide

/-- R150. -/
theorem test_envelope_example :
    (tick { withRegs [(11, 1)] small with epos := 63 }).epos = 0 ∧ (tick { small with epos := -1 }).epos = 0 ∧
    (tick { small with epos := 0 }).epos = 1 := by decide

/-- The table of R158 at n = 0, 31, 32, 63, 64. -/
theorem test_envelope_levels :
    ([-64, -33, -32, -1, 0].map fun p => { withRegs [(13, 0)] small with epos := p }.envLevel)
      = [31, 0, 0, 0, 0] ∧
    ([-64, -33, -32, -1, 0].map fun p => { withRegs [(13, 4)] small with epos := p }.envLevel)
      = [0, 31, 0, 0, 0] ∧
    ([-64, -33, -32, -1, 0].map fun p => { withRegs [(13, 8)] small with epos := p }.envLevel)
      = [31, 0, 31, 0, 31] ∧
    ([-64, -33, -32, -1, 0].map fun p => { withRegs [(13, 9)] small with epos := p }.envLevel)
      = [31, 0, 0, 0, 0] ∧
    ([-64, -33, -32, -1, 0].map fun p => { withRegs [(13, 10)] small with epos := p }.envLevel)
      = [31, 0, 0, 31, 31] ∧
    ([-64, -33, -32, -1, 0].map fun p => { withRegs [(13, 11)] small with epos := p }.envLevel)
      = [31, 0, 31, 31, 31] ∧
    ([-64, -33, -32, -1, 0].map fun p => { withRegs [(13, 12)] small with epos := p }.envLevel)
      = [0, 31, 0, 31, 0] ∧
    ([-64, -33, -32, -1, 0].map fun p => { withRegs [(13, 13)] small with epos := p }.envLevel)
      = [0, 31, 31, 31, 31] ∧
    ([-64, -33, -32, -1, 0].map fun p => { withRegs [(13, 14)] small with epos := p }.envLevel)
      = [0, 31, 31, 0, 0] ∧
    ([-64, -33, -32, -1, 0].map fun p => { withRegs [(13, 15)] small with epos := p }.envLevel)
      = [0, 31, 0, 0, 0] := by decide

/-- R213. -/
theorem test_first_tick_from_reset :
    (tick small).te = 0x7FFF ∧ (tick small).epos = -63 ∧ (tick small).gate = 0x7FFF := by decide

/-! ## Mixer, output and CLOCK (spec/43_mixer_output.md, spec/44_clock_divider.md) -/

/-- R180. -/
theorem test_gate_example :
    { withRegs [(7, 0x3E)] small with te := 0x001F }.gateMask = 0x7FFF := by decide

/-- R184. -/
theorem test_level_index :
    (withRegs [(8, 0x0F)] small).level5 .a = 30 ∧ (withRegs [(8, 0x10)] small).level5 .a = 31 ∧
    { withRegs [(8, 0x0F)] small with ovr := ⟨some 3, none, none⟩ }.level5 .a = 3 := by decide

/-- R187. -/
theorem test_halved_amplitude :
    { withRegs [(0, 1)] small with gate := 0x7FFF, ovr := ⟨some 31, none, none⟩ }.amplitude .a = 10922 ∧
    { withRegs [(0, 2)] small with gate := 0x7FFF, ovr := ⟨some 31, none, none⟩ }.amplitude .a = 21845 := by decide

/-- R191, W = 4. -/
theorem test_dc_example :
    (dcUpdate 100 small).dcs = 100 ∧ dcRemoved 100 (dcUpdate 100 small) = 75 := by decide

/-- R192, R270. -/
theorem test_fir_examples :
    firValue 8 { small with fy1 := 8 } = 6 ∧ firValue 8 small = 2 ∧ firValue (-1) small = -1 := by decide

/-- 2.6. -/
theorem test_binary32_vectors :
    ([0, 1, -1, 65535, -65535, 18380, 9190, 21845, 10922, 32767, 123, 6522, 16384, 16373].map
      fun out => sampleOf out 65535)
    = [0x00000000, 0x37800080, 0xB7800080, 0x3F800000, 0xBF800000, 0x3E8F9890, 0x3E0F9890,
      0x3EAAAAAB, 0x3E2AA8AB, 0x3EFFFF00, 0x3AF600F6, 0x3DCBD0CC, 0x3E800080, 0x3E7FD500] := by decide

/-- R217: CLOCKs 1, 4 and 7. -/
theorem test_clock_divider_default :
    (after .clock small).acc = 14600 ∧ (after .clock { small with acc := 43800 }).acc = 14300 ∧
    (after .clock { small with acc := 43500 }).acc = 14000 := by decide

/-- 2.7: one tick. -/
theorem test_clock_divider_full_rate :
    (after .clock { small with cfg := { smallCfg with hostRate := 250000 } }).acc = 0 ∧
    (after .clock { small with cfg := { smallCfg with hostRate := 250000 } }).epos = -63 := by decide

/-- P4, step 19. -/
theorem test_clock_resolves_tone_reset :
    (after .clock { withRegs [(0, 5)] small with acc := 28900, tc := ⟨1, 0, 0⟩, tr := ⟨true, false, false⟩ }).tc.a = 1 ∧
    (after .clock { withRegs [(0, 5)] small with acc := 28900, tc := ⟨1, 0, 0⟩ }).tc.a = 2 := by decide

/-- 2.6, third row. -/
theorem test_clock_all_channels_open :
    (after .clock (withRegs [(1, 1), (3, 1), (5, 1), (7, 0x3F), (8, 15), (9, 15), (10, 15)] testStart)).fy1 = 55114 ∧
    (after .clock (withRegs [(1, 1), (3, 1), (5, 1), (7, 0x3F), (8, 15), (9, 15), (10, 15)] testStart)).sample = 0x3F574AD7 := by decide

/-- 2.6, the shape 0 row. -/
theorem test_clock_envelope_level :
    (after .clock (withRegs [(1, 1), (3, 1), (5, 1), (7, 0x3F), (8, 0x10)] testStart)).fy1 = 7748 ∧
    (after .clock (withRegs [(1, 1), (3, 1), (5, 1), (7, 0x3F), (8, 0x10)] testStart)).sample = 0x3DF220F2 := by decide

/-- R216. -/
theorem test_getsample :
    (after .getsample testStart).results = [.sample 0x00000000] := by decide

/-! ## Steps -/

/-- R95. -/
theorem test_step_refuses_illegal_word :
    refusal (step { small with pending := [0x10000000] }) = some (.rejected (.illegal .reservedOp)) := by decide

/-- R86. -/
theorem test_step_refuses_truncated_loadregs :
    refusal (step { small with pending := [0x08000000, 1, 2, 3] }) = some (.rejected .truncatedLoadregs) := by decide

/-- R7. -/
theorem test_step_refuses_ill_formed_configuration :
    refusal (step { small with cfg := { smallCfg with hostRate := 0 } }) = some .illFormedConfig := by decide

/-! ## Witnesses: for each obligation with hypotheses, operands and a state that meet them -/

theorem witness_DecodeAfterEncodeGivesInstruction :
    (Instr.wrregOor16 31 7).wf = true := by decide

theorem witness_DecodedWordsAreTheEncoding :
    decode [0x04FF0100, 0x06000000] = .instr (.wrregOor128 255 1) [0x06000000] := by decide

theorem witness_DecoderRejectsExactlyIllegalWords :
    illegalWord 0x10000000 = true ∧ illegalWord 0x0A000100 = false ∧
    (illegalWord 0x08000000 = false ∧ 4 ≤ [1, 2, 3, (4 : Word)].length) ∧ [1, 2, (3 : Word)].length < 4 := by decide

theorem witness_LegalWordsBelongToOneTableRow :
    decode [0x05100000] = .instr (.rdreg 16) [] := by decide

theorem witness_StepRunsTheDecodedOperation :
    small.cfg.wf = true ∧ decode [0x06000000] = .instr .clock [] ∧
    ([0x10000000] : List Word) ≠ [] ∧ decode [0x10000000] = .reject (.illegal .reservedOp) ∧
    small.pending = [] := by decide

theorem witness_ConfigurationIsNeverChanged :
    (∃ t, step { small with pending := [0x06000000] } = .next t) ∧ (∃ t, exec .reset small = .next t) := ⟨exists_next (by decide), ⟨_, rfl⟩⟩

/-- The small start state meets the invariant. -/
theorem small_inv (ws : List Word) : { small with pending := ws }.Inv where
  cfg_wf := (by decide : smallCfg.wf = true)
  regs_masked := (by decide : ∀ i : Fin 16, small.reg i &&& ~~~regMask[i] = 0)
  tc_le := fun ch => by cases ch <;> exact Nat.zero_le _
  te_field := (by intro ch; cases ch <;> decide :
    ∀ ch, fieldOf small.te ch = 0x00 ∨ fieldOf small.te ch = 0x1F)
  nc_le := Nat.zero_le _
  lfsr_ne := (by decide : small.lfsr ≠ 0)
  nm_eq := .inl rfl
  ec_le := Nat.zero_le _
  epos_range := (by decide : -64 ≤ small.epos ∧ small.epos ≤ 63)
  acc_lt := (by decide : small.acc < small.cfg.internalRate)
  gate_eq := rfl
  dch_length := rfl
  dci_lt := (by decide : small.dci < small.cfg.dcWindow)
  dcs_eq := rfl
  dch_le := (by decide : ∀ x ∈ small.dch, x ≤ 3 * 65535)
  fy1_le := (by decide : small.fy1.natAbs ≤ 3 * 65535)
  fy2_le := (by decide : small.fy2.natAbs ≤ 3 * 65535)
  sample_range := (by decide : small.sample.toNat % 2 ^ 31 ≤ 0x3F800000)

theorem witness_InvariantKeptByEveryStep :
    ∃ s t : State, s.Inv ∧ step s = .next t := by
  obtain ⟨t, h⟩ := exists_next (o := step { small with pending := [0x06000000] }) (by decide)
  exact ⟨_, t, small_inv _, h⟩

theorem witness_InvariantHoldsAtReset :
    smallCfg.wf = true ∧ Config.default.wf = true := by decide

theorem witness_InvariantHoldsInEveryReachableState :
    Reachable small := .construct (cfg := smallCfg) (d := ResetDraw.testDefault) (by simp [construct, show smallCfg.wf = true by decide, small])

/-- An illegal word at the boundary of its item, D = 2 of SETFILTER; the proposition `illegal` is then true. -/
theorem witness_StepRefusesExactlyWhatIsNoOperation :
    { small with pending := [0x0A000200] }.cfg.wf = true ∧ { small with pending := [0x0A000200] }.pending = 0x0A000200 :: [] ∧
    0x0A = (0x0A000200 : Word).toNat / 2 ^ 24 ∧ 0x00 = (0x0A000200 : Word).toNat / 2 ^ 16 % 2 ^ 8 ∧
    0x02 = (0x0A000200 : Word).toNat / 2 ^ 8 % 2 ^ 8 ∧ 0x00 = (0x0A000200 : Word).toNat % 2 ^ 8 ∧
    refusal (step { small with pending := [0x0A000200] }) = some (.rejected (.illegal .badFilter)) := by decide

/-- Three data words are too few and four are enough. -/
theorem witness_StepRefusesExactlyWhatIsNoOperation_truncated :
    (0x08000000 : Word).toNat / 2 ^ 24 = 0x08 ∧ (0x08000000 : Word).toNat % 2 ^ 24 = 0 ∧ [1, 2, (3 : Word)].length < 4 ∧
    4 ≤ [1, 2, 3, (4 : Word)].length ∧
    refusal (step { small with pending := [0x08000000, 1, 2, 3] }) = some (.rejected .truncatedLoadregs) ∧
    completes (step { small with pending := [0x08000000, 1, 2, 3, 4] }) = true := by decide

theorem witness_LaterOperationsDoNotAffectEarlierOnes :
    { small with pending := [0x0C000000] }.pending ≠ [] ∧
    ∃ t, step { small with pending := [0x0C000000] } = .next t := ⟨by decide, exists_next (by decide)⟩

theorem witness_OnlyClockAdvancesChipTime :
    Instr.envtrig ≠ .clock ∧ Instr.envtrig ≠ .reset ∧ (∃ t, exec .envtrig small = .next t) := ⟨by decide, by decide, ⟨_, rfl⟩⟩

theorem witness_EnvelopeRestartsOnlyByShapeWriteOrTrigger :
    (Instr.wrregR12 1).wf = true ∧ Instr.wrregR12 1 ≠ .clock ∧ Instr.wrregR12 1 ≠ .reset ∧
    (∃ t, exec (.wrregR12 1) small = .next t) := ⟨by decide, by decide, by decide, ⟨_, rfl⟩⟩

theorem witness_RegisterFileAndLatchHaveNoOtherWriter :
    (Instr.wrregR7 0x3E).wf = true ∧ (∃ t, exec (.wrregR7 0x3E) small = .next t) ∧
    (after (.wrregR7 0x3E) small).regs ≠ small.regs ∧ (after (.wrregR7 0x3E) small).latch ≠ small.latch := ⟨by decide, ⟨_, rfl⟩, by decide, by decide⟩

theorem witness_HiddenStateIsNotObservable :
    small.regs = { small with epos := 5 }.regs ∧ small.latch = { small with epos := 5 }.latch ∧
    small.sample = { small with epos := 5 }.sample ∧ small.results = { small with epos := 5 }.results ∧
    small.fixedReads = { small with epos := 5 }.fixedReads ∧ small.drawn = { small with epos := 5 }.drawn ∧
    (∃ t, exec (.rdreg 3) small = .next t) ∧ (∃ t, exec (.rdreg 3) { small with epos := 5 } = .next t) := ⟨rfl, rfl, rfl, rfl, rfl, rfl, ⟨_, rfl⟩, ⟨_, rfl⟩⟩

theorem witness_DeferredToneResetWaitsForClock :
    Instr.nop ≠ .clock ∧ Instr.nop ≠ .reset ∧ (∃ t, exec .nop { small with tr := ⟨true, false, false⟩ } = .next t) ∧
    { small with tr := ⟨true, false, false⟩ }.tr.get .a = true ∧ (∃ t, exec .clock small = .next t) := ⟨by decide, by decide, ⟨_, rfl⟩, rfl, _, rfl⟩

/-- One configuration for each range that can fail, at its boundary. -/
theorem witness_ConstructionGivesTheResetStateOrRefuses :
    { smallCfg with masterClock := 7 }.masterClock < 8 ∧ { smallCfg with hostRate := 0 }.hostRate = 0 ∧
    { smallCfg with hostRate := 250001 }.internalRate < 250001 ∧
    65535 < lvlAt { smallCfg with lvl := smallCfg.lvl.set 31 65536 } 31 ∧
    { smallCfg with dcWindow := 0 }.dcWindow = 0 ∧ { smallCfg with outScale := 0 }.outScale = 0 := by decide

theorem witness_ConstructionGivesTheResetStateOrRefuses_wellFormed :
    8 ≤ smallCfg.masterClock ∧ 1 ≤ smallCfg.hostRate ∧ smallCfg.hostRate ≤ smallCfg.internalRate ∧
    (∀ i : Level, lvlAt smallCfg i ≤ 65535) ∧ 1 ≤ smallCfg.dcWindow ∧ 1 ≤ smallCfg.outScale ∧
    { small with fixedResets := [ResetDraw.testDefault] }.cfg = smallCfg ∧
    { small with fixedResets := [ResetDraw.testDefault] }.fixedResets = ResetDraw.testDefault :: [] := by decide

theorem witness_WrdataWritesTheSelectedRegister :
    ({ small with latch := 0 }.latch.toNat = (0 : Fin 16).val ∧ (0 : Fin 16) ≠ 13) ∧
    ({ small with latch := 15 }.latch.toNat = (15 : Fin 16).val ∧ (15 : Fin 16) ≠ 13) ∧
    { small with latch := 13 }.latch.toNat = 13 ∧ 16 ≤ { small with latch := 16 }.latch.toNat := by decide

theorem witness_RddataReturnsTheSelectedRegister :
    { small with latch := 15 }.latch.toNat = (15 : Fin 16).val ∧
    (16 ≤ { small with latch := 16, fixedReads := [7] }.latch.toNat ∧
      { small with latch := 16, fixedReads := [7] }.fixedReads = 7 :: []) ∧
    (16 ≤ { small with latch := 255 }.latch.toNat ∧ small.fixedReads = []) := by decide

theorem witness_RdregReturnsTheNamedRegister :
    (15 : Byte).toNat = (15 : Fin 16).val ∧ 16 ≤ (16 : Byte).toNat ∧
    { small with fixedReads := [7] }.fixedReads = 7 :: [] ∧ small.fixedReads = [] := by decide

theorem witness_ShapeWriteRestartsTheEnvelope :
    { small with latch := 13 }.latch = 13 := by decide

theorem witness_OutOfRangeWriteIsIgnored :
    128 ≤ (128 : Byte).toNat ∧ (64 ≤ (127 : Byte).toNat ∧ (127 : Byte).toNat < 128) ∧
    (32 ≤ (32 : Byte).toNat ∧ (32 : Byte).toNat < 64) ∧ (16 ≤ (31 : Byte).toNat ∧ (31 : Byte).toNat < 32) ∧
    16 ≤ { small with latch := 16 }.latch.toNat := by decide

theorem witness_DumpThenLoadRestartsOnlyTheEnvelope :
    (∀ i : Fin 16, (withRegs [(13, 0x0A)] small).reg i &&& ~~~regMask[i] = 0) ∧
    frameOfWords 0 0 0 0x00000A00 = (withRegs [(13, 0x0A)] small).regs := by decide

theorem witness_SettoneSetsTheTonePeriod :
    4095 ≤ 4095 ∧ 4095 < 4096 := by decide

theorem witness_ToneTickCountsAndToggles :
    (small.tp .a).toNat ≤ small.tc.get .a + 1 ∧
    (withRegs [(0, 2)] small).tc.get .a + 1 < ((withRegs [(0, 2)] small).tp .a).toNat := by decide

theorem witness_NoiseTickShiftsOnTheActiveHalf :
    { small with nh := true }.nh = true ∧ (small.nh = false ∧ max small.np.toNat 1 ≤ small.nc + 1) ∧
    ((withRegs [(6, 2)] small).nh = false ∧
      (withRegs [(6, 2)] small).nc + 1 < max (withRegs [(6, 2)] small).np.toNat 1) := by decide

theorem witness_EnvelopeTickAdvancesAndWraps :
    (small.ep.toNat ≤ small.ec + 1 ∧ { small with epos := -1 }.epos + 1 ≤ 0) ∧
    0 < { small with epos := 63 }.epos + 1 ∧ (withRegs [(11, 2)] small).ec + 1 < (withRegs [(11, 2)] small).ep.toNat := by decide

theorem witness_GateFollowsTheMixerBits :
    (fieldOf small.te .b = 0x00 ∨ fieldOf small.te .b = 0x1F) ∧ (small.nm = 0x0000 ∨ small.nm = 0x7FFF) := by decide

theorem witness_ToneTogglesOncePerPeriod :
    small.tc.get .c = 0 := by decide

theorem witness_NoiseShiftsOncePerTwoPeriods :
    small.nc = 0 ∧ small.nh = false := by decide

theorem witness_LfsrHasFullPeriod :
    (1 : BitVec 17) ≠ 0 ∧ 0 < 131070 ∧ 131070 < 131071 := by decide

theorem witness_EnvelopePlaysOnceThenLoops :
    small.epos = -64 ∧ small.ec = 0 := by decide

theorem witness_EnvelopeTableDrawsTheShapeBits :
    3 < 4 ∧ 31 < 32 ∧ { withRegs [(13, 14)] small with epos := 63 }.epos = 32 * ((3 : Nat) : Int) + ((31 : Nat) : Int) - 64 ∧
    (withRegs [(13, 14)] small).reg 13 = 14 ∧ (14 : Byte).getLsbD 3 = true ∧ (14 : Byte).getLsbD 2 = true ∧
    (14 : Byte).getLsbD 1 = true ∧ (14 : Byte).getLsbD 0 = false := by decide

theorem witness_LevelsAreSelectedGatedAndHalved :
    { small with ovr := ⟨some 3, none, none⟩ }.ovr.get .a = some 3 ∧
    (small.ovr.get .a = none ∧ ((withRegs [(8, 0x10)] small).reg (ampIndex .a)).getLsbD 4 = true) ∧
    (small.reg (ampIndex .a)).getLsbD 4 = false ∧
    (fieldOf { small with gate := 0x001F }.gate .a = 0x1F ∧ fieldOf small.gate .a = 0) ∧
    2 ≤ ((withRegs [(0, 2)] small).tp .a).toNat ∧ ((withRegs [(0, 1)] small).tp .a).toNat ≤ 1 := by decide

theorem witness_MixedSumIsBounded :
    ∀ i : Level, lvlAt small.cfg i ≤ 21845 := by decide

theorem witness_MixComputesOneSample :
    ∃ (x : Nat) (sum y z : Int), x = small.amplitude .a + small.amplitude .b + small.amplitude .c ∧
    sum = small.dcs - (small.dch.getD small.dci 0 : Nat) + x ∧
    y = x - ⌊(sum : ℚ) / (small.cfg.dcWindow : ℚ)⌋ ∧
    z = ⌊((small.fy2 : ℚ) + 2 * (small.fy1 : ℚ) + (y : ℚ)) / 4⌋ := ⟨_, _, _, _, rfl, rfl, rfl, rfl⟩

theorem witness_ConstantInputFadesToZero :
    1 ≤ small.cfg.dcWindow ∧ small.dch = List.replicate small.cfg.dcWindow 0 ∧
    small.dci < small.cfg.dcWindow ∧ small.dcs = 0 ∧ 1 ≤ 4 := by decide

/-- A tie, half-way between two neighbours, and a negative output that does not round to zero. -/
theorem witness_SampleIsTheNearestBinary32 :
    1 ≤ 33554432 ∧ 0x3F000001 < 0x7F800000 ∧ 0 ≤ (16777217 : Int) ∧
    (let c := clampInt 16777217 (-(33554432 : Nat)) (33554432 : Nat)
     let b := (sampleOf 16777217 33554432).toNat % 2 ^ 31
     b = 0x3F000000 ∧ binary32Error c.natAbs 33554432 b = binary32Error c.natAbs 33554432 0x3F000001 ∧
       b ≠ 0x3F000001) ∧
    ((-1 : Int) < 0 ∧ (sampleOf (-1) 65535).toNat % 2 ^ 31 ≠ 0) := by decide

theorem witness_SampleClampsAtFullScale :
    1 ≤ 65535 ∧ ((65535 : Nat) : Int) ≤ 65535 ∧ (-65535 : Int) ≤ -((65535 : Nat) : Int) := by decide

theorem witness_ClockTicksUntilTheSampleBoundary :
    small.cfg.wf = true := by decide

/-- One CLOCK with pending tone resets runs six ticks (R217), and no CLOCK none; `u` is the state the statement writes out. -/
theorem witness_ClocksRunExactlyTheCeilingOfTicks :
    { small with tr := ⟨true, false, true⟩ }.cfg.wf = true ∧ { small with tr := ⟨true, false, true⟩ }.acc = 0 ∧
    6 = (1 * small.cfg.internalRate + small.cfg.hostRate - 1) / small.cfg.hostRate ∧
    0 = (0 * small.cfg.internalRate + small.cfg.hostRate - 1) / small.cfg.hostRate := by decide

theorem witness_GateIsOpenWhenAnyTickOpensIt :
    small.gate = 0 ∧ (fieldOf small.te .a = 0x00 ∧ fieldOf small.te .b = 0x00 ∧ fieldOf small.te .c = 0x00) ∧
    (small.nm = 0x0000 ∨ small.nm = 0x7FFF) ∧ completes (exec .clock small) = true := by decide

theorem witness_FastToneAlwaysOpensItsGate :
    (fieldOf small.te .a = 0x00 ∨ fieldOf small.te .a = 0x1F) ∧
    ((withRegs [(7, 0x38)] small).reg 7).getLsbD (3 + Channel.a.index) = true ∧
    max ((withRegs [(7, 0x38)] small).tp .a).toNat 1 < 2 := by decide

/-- The small start state is silent, whatever register is selected. -/
theorem small_silent (a : Byte) : { small with latch := a }.Silent where
  amp_zero := (by intro ch; cases ch <;> decide : ∀ ch, small.reg (ampIndex ch) = 0)
  no_override := (by intro ch; cases ch <;> rfl : ∀ ch, small.ovr.get ch = none)
  lvl_zero := (by decide : lvlAt small.cfg 0 = 0)
  ring_zero := (by decide : ∀ x ∈ small.dch, x = 0)
  sum_zero := rfl
  fy1_zero := rfl
  fy2_zero := rfl
  sample_zero := rfl

theorem witness_SilenceUntilAnAmplitudeIsWritten :
    small.cfg.wf = true ∧ { small with latch := 7 }.Silent ∧ (Instr.wrdata 0x55).wf = true ∧
    (∀ d, Instr.wrdata 0x55 ≠ .wrregR8 d ∧ Instr.wrdata 0x55 ≠ .wrregR9 d ∧ Instr.wrdata 0x55 ≠ .wrregR10 d) ∧
    (∀ l, Instr.wrdata 0x55 ≠ .setovrA l ∧ Instr.wrdata 0x55 ≠ .setovrB l ∧ Instr.wrdata 0x55 ≠ .setovrC l) ∧
    (∀ d, Instr.wrdata 0x55 = .wrdata d → { small with latch := 7 }.latch ≠ 8 ∧
      { small with latch := 7 }.latch ≠ 9 ∧ { small with latch := 7 }.latch ≠ 10) ∧
    (∀ v0 v1 v2 v3, Instr.wrdata 0x55 = .loadregs v0 v1 v2 v3 →
      wordByte v2 0 = 0 ∧ wordByte v2 1 = 0 ∧ wordByte v2 2 = 0) ∧
    (∃ t, exec (.wrdata 0x55) { small with latch := 7 } = .next t) := by
  refine ⟨by decide, small_silent 7, rfl, fun _ => ?_, fun _ => ?_, fun _ _ => by decide, ?_, ⟨_, rfl⟩⟩
  · exact ⟨nofun, nofun, nofun⟩
  · exact ⟨nofun, nofun, nofun⟩
  · exact nofun

end Sys2Proof.Tests
end

section
/-!
PROOFS. The scope of the model (spec/00_scope.md): chip time passes only in CLOCK (R4), and what
construction checks and gives (R6, R7).
-/

namespace Sys2Proof.Machine

/-! ## Chip time (spec/00_scope.md R4) -/

/-- The LOADREGS loop changes the register file and, through R[13], the envelope (R250). -/
@[simp] theorem loadFrame_frame (f : Vector Byte 16) (s : State) :
    (loadFrame f s).latch = s.latch ∧ (loadFrame f s).tc = s.tc ∧ (loadFrame f s).te = s.te ∧
    (loadFrame f s).tr = s.tr ∧ (loadFrame f s).nc = s.nc ∧ (loadFrame f s).lfsr = s.lfsr ∧
    (loadFrame f s).nh = s.nh ∧ (loadFrame f s).nm = s.nm ∧ (loadFrame f s).acc = s.acc ∧
    (loadFrame f s).gate = s.gate ∧ (loadFrame f s).dch = s.dch ∧ (loadFrame f s).dci = s.dci ∧
    (loadFrame f s).dcs = s.dcs ∧ (loadFrame f s).fy1 = s.fy1 ∧ (loadFrame f s).fy2 = s.fy2 ∧
    (loadFrame f s).filt = s.filt ∧ (loadFrame f s).ovr = s.ovr ∧
    (loadFrame f s).sample = s.sample ∧ (loadFrame f s).cfg = s.cfg ∧
    (loadFrame f s).pending = s.pending ∧ (loadFrame f s).results = s.results ∧
    (loadFrame f s).fixedResets = s.fixedResets ∧ (loadFrame f s).fixedReads = s.fixedReads ∧
    (loadFrame f s).drawn = s.drawn := by
  unfold loadFrame
  induction List.finRange 16 generalizing s with
  | nil => simp
  | cons i is ih => simp [ih]

/-- The updates the host's operations make outside CLOCK and RESET: every operation's meaning is one
of these named updates of the state. -/
inductive HostUpdate (s : State) : State → Prop
  | keep : HostUpdate s s
  | latch (a : Byte) : HostUpdate s (setLatch a s)
  | write (a d : Byte) : HostUpdate s (writeReg a d s)
  | latchedWrite (a d : Byte) : HostUpdate s (latchedWrite a d s)
  | load (f : Vector Byte 16) : HostUpdate s (loadFrame f s)
  | read (a : Byte) : HostUpdate s (returnReg a s)
  | latchedRead (a : Byte) : HostUpdate s (returnReg a (setLatch a s))
  | handBack (r : Result) : HostUpdate s (handBack r s)
  | filter (on : Bool) : HostUpdate s { s with filt := on }
  | toneReset (ch : Channel) : HostUpdate s (requestToneReset ch s)
  | envRestart : HostUpdate s (envRestart s)
  | override (ch : Channel) (v : Option Level) : HostUpdate s (setOverride ch v s)

/-- Every operation but CLOCK and RESET makes a host update. -/
theorem hostUpdate_of_exec {i : Instr} {s t : State} (hclock : i ≠ .clock) (hreset : i ≠ .reset)
    (h : exec i s = .next t) : HostUpdate s t :=
  match i, h with
  | .clock, _ => absurd rfl hclock
  | .reset, _ => absurd rfl hreset
  | .nop, rfl => .keep
  | .latch a, rfl => .latch a
  | .wrdata d, rfl => .write s.latch d
  | .rddata, rfl => .read s.latch
  | .wrregR0 d, rfl | .wrregR1 d, rfl | .wrregR2 d, rfl | .wrregR3 d, rfl | .wrregR4 d, rfl
  | .wrregR5 d, rfl | .wrregR6 d, rfl | .wrregR7 d, rfl | .wrregR8 d, rfl | .wrregR9 d, rfl
  | .wrregR10 d, rfl | .wrregR11 d, rfl | .wrregR12 d, rfl | .wrregR13 d, rfl | .wrregR14 d, rfl
  | .wrregR15 d, rfl => .latchedWrite _ d
  | .wrregOor128 a d, rfl | .wrregOor64 a d, rfl | .wrregOor32 a d, rfl
  | .wrregOor16 a d, rfl => .latchedWrite a d
  | .rdreg a, rfl => .latchedRead a
  | .getsample, rfl => .handBack (.sample s.sample)
  | .loadregs v0 v1 v2 v3, rfl => .load (frameOfWords v0 v1 v2 v3)
  | .dumpregs, rfl => .handBack (.frame s.regs)
  | .setfilter on, rfl => .filter on
  | .toneresetA, rfl => .toneReset .a
  | .toneresetB, rfl => .toneReset .b
  | .toneresetC, rfl => .toneReset .c
  | .envtrig, rfl => .envRestart
  | .setovrA l, rfl => .override .a (some l)
  | .setovrB l, rfl => .override .b (some l)
  | .setovrC l, rfl => .override .c (some l)
  | .clrovrA, rfl => .override .a none
  | .clrovrB, rfl => .override .b none
  | .clrovrC, rfl => .override .c none

/-- Settles O15: each host update leaves these fields alone, by its own frame lemma. -/
theorem onlyClockAdvancesChipTime : Obligations.OnlyClockAdvancesChipTime := by
  intro i s t hclock hreset h
  cases hostUpdate_of_exec hclock hreset h with
  | keep => simp only [and_self]
  | latch a => simp only [setLatch_frame, and_self]
  | write a d => simp only [writeReg_frame, and_self]
  | latchedWrite a d => simp only [latchedWrite_frame, and_self]
  | load f => simp only [loadFrame_frame, and_self]
  | read a => simp only [returnReg_frame, and_self]
  | latchedRead a => simp only [returnReg_frame, setLatch_frame, and_self]
  | handBack r => simp only [handBack_frame, and_self]
  | filter on => simp only [and_self]
  | toneReset ch => simp only [requestToneReset_frame, and_self]
  | envRestart => simp only [envRestart_frame, and_self]
  | override ch v => simp only [setOverride_frame, and_self]

/-! ## Construction (spec/00_scope.md R6, R7) -/

/-- The table check of `Config.wf`, level by level. -/
theorem lvl_all_le_iff (c : Config) (m : Nat) :
    c.lvl.toList.all (fun v => decide (v ≤ m)) = true ↔ ∀ i : Level, lvlAt c i ≤ m := by
  simp only [List.all_eq_true, decide_eq_true_eq, List.forall_mem_iff_forall_getElem]
  constructor
  · intro h i
    exact h i.toNat (by simpa using i.isLt)
  · intro h i hi
    have hi' : i < 32 := by simpa using hi
    simpa [lvlAt, Nat.mod_eq_of_lt hi'] using h (BitVec.ofNat 5 i)

/-- A configuration is well formed when each range of R6 holds. -/
theorem config_wf_iff (c : Config) :
    c.wf = true ↔ 8 ≤ c.masterClock ∧ 1 ≤ c.hostRate ∧ c.hostRate ≤ c.internalRate ∧
      (∀ i : Level, lvlAt c i ≤ 65535) ∧ 1 ≤ c.dcWindow ∧ 1 ≤ c.outScale := by
  simp only [Config.wf, Bool.and_eq_true, decide_eq_true_eq, lvl_all_le_iff, and_assoc]

theorem construct_of_wf {cfg : Config} (h : cfg.wf = true) (d : ResetDraw) :
    construct cfg d = .next (State.initial cfg d) := if_pos h

theorem construct_of_not_wf {cfg : Config} (h : ¬ cfg.wf = true) (d : ResetDraw) :
    construct cfg d = .refused .illFormedConfig := if_neg h

/-- The seed a RESET draws is in 1 .. 2^17 - 1, so the LFSR never starts at 0 (D15). -/
theorem resetDraw_seed_ne_zero (d : ResetDraw) : d.seed ≠ 0 := by
  have hlt := d.seedPred.isLt
  intro h
  have hval : (d.seedPred.val + 1) % 2 ^ 17 = 0 := congrArg BitVec.toNat h
  omega

theorem resetDraw_edge (d : ResetDraw) (ch : Channel) : d.edge ch = 0x00 ∨ d.edge ch = 0x1F := by
  unfold ResetDraw.edge
  split
  · exact .inr rfl
  · exact .inl rfl

/-- RESET with the host's draw at hand uses it up and resets under it (R276). -/
theorem exec_reset_of_fixed {u : State} {d : ResetDraw} {ds : List ResetDraw}
    (h : u.fixedResets = d :: ds) :
    exec .reset u = .next (resetWith d { u with fixedResets := ds }) := by
  simp only [exec, execReset, drawnReset, useReset, h]

/-- The defaults of R6 are in their ranges. -/
theorem config_default_wf : Config.default.wf = true := by decide

/-- Settles O20: `construct` checks exactly the ranges of R6 and gives `State.initial`, from which
RESET and `State.reset` are built too. -/
theorem constructionGivesTheResetStateOrRefuses :
    Obligations.ConstructionGivesTheResetStateOrRefuses := by
  refine ⟨fun cfg d => ⟨fun hbad => ?refuses, fun hclock hrate hle hlvl hwin hscale => ?builds⟩,
    Config.freeReset 0, _, construct_of_wf config_default_wf _, rfl⟩
  case refuses =>
    refine construct_of_not_wf (fun hwf => ?_) d
    obtain ⟨hclock, hrate, hle, hlvl, hwin, hscale⟩ := (config_wf_iff cfg).mp hwf
    obtain h | h | h | ⟨i, h⟩ | h | h := hbad
    · omega
    · omega
    · omega
    · exact absurd (hlvl i) (Nat.not_le.mpr h)
    · omega
    · omega
  case builds =>
    have hwf := (config_wf_iff cfg).mpr ⟨hclock, hrate, hle, hlvl, hwin, hscale⟩
    refine ⟨resetDraw_seed_ne_zero d, resetDraw_edge d, _, construct_of_wf hwf d, rfl, ?_⟩
    intro u ds hcfg hfixed
    rw [exec_reset_of_fixed hfixed, ← hcfg]
    rfl

end Sys2Proof.Machine
end

section
/-!
PROOFS. The invariant of spec/10_state.md: it holds at reset (R38) and every step keeps it.
-/

namespace Sys2Proof.Machine

/-! ## The invariant at reset (spec/10_state.md R38) -/

/-- A 15-bit mask put together from three fields reads them back (spec/00_scope.md R11). -/
theorem fieldOf_append (f : Channel → Level) (ch : Channel) :
    fieldOf (f .c ++ f .b ++ f .a) ch = f ch := by
  cases ch with
  | a => exact BitVec.extractLsb'_append_eq_right
  | b =>
    have h := BitVec.extractLsb'_append_eq_of_le (xhi := f .c ++ f .b) (xlo := f .a)
      (start := 5) (len := 5) le_rfl
    exact h.trans BitVec.extractLsb'_append_eq_right
  | c =>
    have h := BitVec.extractLsb'_append_eq_of_le (xhi := f .c ++ f .b) (xlo := f .a)
      (start := 10) (len := 5) (by decide)
    exact h.trans BitVec.extractLsb'_append_eq_left

/-- The state of R38 is inside every range when the configuration is, whatever the draws. -/
theorem inv_initial {cfg : Config} (h : cfg.wf = true) (d : ResetDraw) :
    (State.initial cfg d).Inv := by
  obtain ⟨hclock, -, -, -, hwin, -⟩ := (config_wf_iff cfg).mp h
  have hrate : 0 < cfg.internalRate := Nat.div_pos hclock (by decide)
  exact {
    cfg_wf := h
    regs_masked := fun i => by simp [State.initial, State.reg]
    tc_le := fun ch => by simp [State.initial]
    te_field := fun ch => by
      have hfield : fieldOf (State.initial cfg d).te ch = d.edge ch := fieldOf_append d.edge ch
      rw [hfield]
      exact resetDraw_edge d ch
    nc_le := Nat.zero_le _
    lfsr_ne := resetDraw_seed_ne_zero d
    nm_eq := .inl rfl
    ec_le := Nat.zero_le _
    epos_range := by simp [State.initial]
    acc_lt := hrate
    gate_eq := rfl
    dch_length := List.length_replicate
    dci_lt := hwin
    dcs_eq := by simp [State.initial]
    dch_le := fun x hx => by simp [List.eq_of_mem_replicate hx]
    fy1_le := Nat.zero_le _
    fy2_le := Nat.zero_le _
    sample_range := Nat.zero_le _ }

/-- RESET puts every field of the invariant where construction puts it (R276). -/
theorem inv_resetWith (d : ResetDraw) {s : State} (hs : s.Inv) : (resetWith d s).Inv :=
  { inv_initial hs.cfg_wf d with }

/-- Settles O11: `State.reset` is `State.initial` of the defaults but for the count of draws, which the
invariant does not speak of. -/
theorem invariantHoldsAtReset : Obligations.InvariantHoldsAtReset :=
  ⟨{ inv_initial config_default_wf _ with }, fun _ d h => inv_initial h d⟩

/-! ## The host's updates keep the invariant -/

section HostUpdates

variable {s : State} (hs : s.Inv)
include hs

theorem inv_setLatch (a : Byte) : (setLatch a s).Inv := { hs with }

theorem inv_envRestart : (envRestart s).Inv :=
  { hs with ec_le := Nat.zero_le _, epos_range := by simp }

theorem inv_writeReg (a d : Byte) : (writeReg a d s).Inv := by
  have hregs := writeReg_masked hs.regs_masked a d
  by_cases h : a.toNat < 16
  · rw [writeReg_of_lt h] at hregs ⊢
    by_cases hshape : (⟨a.toNat, h⟩ : Fin 16) = 13
    · rw [hshape, writeEffect_shape] at hregs ⊢
      exact { hs with regs_masked := hregs, ec_le := Nat.zero_le _, epos_range := by simp }
    · rw [writeEffect_of_ne hshape] at hregs ⊢
      exact { hs with regs_masked := hregs }
  · rwa [writeReg_of_ge (Nat.not_lt.mp h)]

theorem inv_latchedWrite (a d : Byte) : (latchedWrite a d s).Inv :=
  inv_writeReg (inv_setLatch hs a) a d

theorem inv_loadFrame (f : Vector Byte 16) : (loadFrame f s).Inv := by
  refine List.foldlRecOn _ (loadReg f) hs fun t ht i _ => ?_
  unfold loadReg
  split
  · exact ht
  · exact inv_writeReg ht _ _

theorem inv_useRead : (useRead s).Inv := by
  unfold useRead
  split
  · exact { hs with }
  · exact { hs with }

theorem inv_useReset : (useReset s).Inv := by
  unfold useReset
  split
  · exact { hs with }
  · exact { hs with }

theorem inv_returnReg (a : Byte) : (returnReg a s).Inv := by
  have h : (readRegState a s).Inv := by
    unfold readRegState
    split
    · exact hs
    · exact inv_useRead hs
  exact { h with }

/-- Every host update keeps the invariant. -/
theorem inv_of_hostUpdate {t : State} (h : HostUpdate s t) : t.Inv := by
  cases h with
  | keep => exact hs
  | latch a => exact inv_setLatch hs a
  | write a d => exact inv_writeReg hs a d
  | latchedWrite a d => exact inv_latchedWrite hs a d
  | load f => exact inv_loadFrame hs f
  | read a => exact inv_returnReg hs a
  | latchedRead a => exact inv_returnReg (inv_setLatch hs a) a
  | handBack r => exact { hs with }
  | filter on => exact { hs with }
  | toneReset ch => exact { hs with }
  | envRestart => exact inv_envRestart hs
  | override ch v => exact { hs with }

end HostUpdates

/-! ## The generators keep their ranges -/

/-- The LFSR is never all zeros: the shift loses bit 0 alone, and when that bit is 1 the feedback sets
bit 16 (spec/41_noise.md R132). -/
theorem lfsrStep_ne_zero {v : BitVec 17} (h : v ≠ 0) : lfsrStep v ≠ 0 := by
  intro hz
  unfold lfsrStep at hz
  split at hz
  case isTrue =>
    have hbit := congrArg (BitVec.getLsbD · 16) hz
    simp at hbit
  case isFalse hodd =>
    have hhalf : v.toNat >>> 1 = 0 := by simpa using congrArg BitVec.toNat hz
    rw [Nat.shiftRight_one] at hhalf
    have heven : v.toNat % 2 = 0 := by simpa [BitVec.getLsbD, Nat.testBit_zero] using hodd
    exact h (BitVec.eq_of_toNat_eq (by simp; omega))

theorem noiseMaskOf_eq (b : Bool) : noiseMaskOf b = 0x0000 ∨ noiseMaskOf b = 0x7FFF := by
  cases b
  · exact .inl rfl
  · exact .inr rfl

/-- A toggle takes an edge field from one end to the other (spec/10_state.md R28). -/
theorem edge_toggle {f : Level} (h : f = 0x00 ∨ f = 0x1F) : f ^^^ 0x1F = 0x00 ∨ f ^^^ 0x1F = 0x1F := by
  obtain rfl | rfl := h
  · exact .inr rfl
  · exact .inl rfl

theorem wrapPos_range {p : Int} (hlo : -64 ≤ p) : -64 ≤ wrapPos p ∧ wrapPos p ≤ 63 := by
  unfold wrapPos
  split <;> omega

/-- What holds at every tick inside CLOCK: the invariant but for `ACC` and `GATE`, which CLOCK uses
and puts back. -/
def State.TickInv (s : State) : Prop := { s with acc := 0, gate := 0 }.Inv

/-- Between two operations `ACC` is short of the sample boundary and `GATE` is clear (R31, R32). -/
theorem inv_iff_tickInv (s : State) :
    s.Inv ↔ s.TickInv ∧ s.acc < s.cfg.internalRate ∧ s.gate = 0 :=
  ⟨fun h => ⟨{ h with acc_lt := Nat.zero_lt_of_lt h.acc_lt, gate_eq := rfl }, h.acc_lt, h.gate_eq⟩,
    fun ⟨h, hacc, hgate⟩ => { h with acc_lt := hacc, gate_eq := hgate }⟩

/-- A tone step writes its counter and edge alone (R110). -/
theorem toneStep_eq (ch : Channel) (s : State) :
    toneStep ch s = { s with tc := (toneStep ch s).tc, te := (toneStep ch s).te } := by
  unfold toneStep
  split
  · rfl
  · rfl

section Ticks

variable {s : State} (hs : s.TickInv)
include hs

theorem tickInv_toneStep (ch : Channel) : (toneStep ch s).TickInv := by
  have htc : ∀ ch', (toneStep ch s).tc.get ch' ≤ 4094 := by
    intro ch'
    have hle : s.tc.get ch' ≤ 4094 := hs.tc_le ch'
    have htp := (s.tp ch).isLt
    rw [toneStep_tc]
    split_ifs <;> omega
  have hte : ∀ ch', fieldOf (toneStep ch s).te ch' = 0x00 ∨ fieldOf (toneStep ch s).te ch' = 0x1F := by
    intro ch'
    rw [toneStep_te]
    split
    · exact edge_toggle (hs.te_field ch')
    · exact hs.te_field ch'
  have h : { s with tc := (toneStep ch s).tc, te := (toneStep ch s).te }.TickInv :=
    { hs with tc_le := htc, te_field := hte }
  rwa [← toneStep_eq] at h

theorem tickInv_noiseTick : (noiseTick s).TickInv := by
  have hnp := s.np.isLt
  unfold noiseTick
  split
  · exact { hs with }
  · split
    · exact { hs with
        lfsr_ne := lfsrStep_ne_zero hs.lfsr_ne
        nm_eq := noiseMaskOf_eq _
        nc_le := Nat.zero_le _ }
    · exact { hs with nc_le := by simp only; omega }

theorem tickInv_envTick : (envTick s).TickInv := by
  have hep := s.ep.isLt
  obtain ⟨hlo, -⟩ : -64 ≤ s.epos ∧ s.epos ≤ 63 := hs.epos_range
  unfold envTick
  split
  · exact { hs with ec_le := Nat.zero_le _, epos_range := wrapPos_range (by omega) }
  · exact { hs with ec_le := by simp only; omega }

theorem tickInv_accumulateGate : (accumulateGate s).TickInv := { hs with }

end Ticks

theorem tickInv_tick {s : State} (hs : s.TickInv) : (tick s).TickInv := by
  have htone : (toneTick s).TickInv :=
    tickInv_toneStep (tickInv_toneStep (tickInv_toneStep hs .a) .b) .c
  exact tickInv_accumulateGate (tickInv_envTick (tickInv_noiseTick htone))

theorem tickInv_tickAndCount {s : State} (hs : s.TickInv) : (tickAndCount s).TickInv :=
  { tickInv_tick hs with }

theorem tickInv_clockTicks (fuel : Nat) {s : State} (hs : s.TickInv) :
    (clockTicks fuel s).TickInv := by
  induction fuel generalizing s with
  | zero => exact hs
  | succ n ih =>
    unfold clockTicks
    dsimp only
    split
    · exact tickInv_tickAndCount hs
    · exact ih (tickInv_tickAndCount hs)

theorem tickAndCount_acc (s : State) : (tickAndCount s).acc = s.acc + s.cfg.hostRate := by
  simp [tickAndCount]

/-- The tick loop of CLOCK ends before `ACC` is a whole `HOST_RATE` past the boundary (R214). -/
theorem clockTicks_acc_lt (fuel : Nat) {s : State} (h : s.acc < s.cfg.internalRate) :
    (clockTicks fuel s).acc < s.cfg.internalRate + s.cfg.hostRate := by
  induction fuel generalizing s with
  | zero => exact Nat.lt_add_right _ h
  | succ n ih =>
    unfold clockTicks
    dsimp only
    split
    · rw [tickAndCount_acc]
      omega
    next hlt =>
      simpa using ih (Nat.not_le.mp hlt)

/-- A deferred reset sets its counter to 0, which is in range (R113). -/
theorem tickInv_resolveToneReset {s : State} (hs : s.TickInv) (ch : Channel) :
    (resolveToneReset ch s).TickInv := by
  unfold resolveToneReset
  split
  · refine { hs with tc_le := fun ch' => ?_ }
    have hle : s.tc.get ch' ≤ 4094 := hs.tc_le ch'
    simp only [PerChannel.get_set]
    split
    · exact Nat.zero_le _
    · exact hle
  · exact hs

theorem tickInv_resolveToneResets {s : State} (hs : s.TickInv) : (resolveToneResets s).TickInv :=
  tickInv_resolveToneReset (tickInv_resolveToneReset (tickInv_resolveToneReset hs .a) .b) .c

/-! ## The mixer and the filters keep their ranges -/

theorem amplitude_le {s : State} {m : Nat} (h : ∀ i : Level, lvlAt s.cfg i ≤ m) (ch : Channel) :
    s.amplitude ch ≤ m := by
  unfold State.amplitude
  split
  · exact (Nat.shiftRight_le _ 1).trans (h _)
  · exact h _

/-- A mixed sum is at most three table entries (spec/43_mixer_output.md R190). -/
theorem mixedSum_le {s : State} {m : Nat} (h : ∀ i : Level, lvlAt s.cfg i ≤ m) :
    s.mixedSum ≤ 3 * m := by
  have ha := amplitude_le h .a
  have hb := amplitude_le h .b
  have hc := amplitude_le h .c
  unfold State.mixedSum
  omega

/-- Replacing an entry changes the sum by the difference. -/
theorem sum_set_add_getD (l : List Nat) {i : Nat} (h : i < l.length) (x : Nat) :
    (l.set i x).sum + l.getD i 0 = l.sum + x := by
  induction l generalizing i with
  | nil => exact absurd h (Nat.not_lt_zero i)
  | cons y l ih =>
    cases i with
    | zero =>
      simp only [List.set_cons_zero, List.sum_cons, List.getD_cons_zero]
      omega
    | succ i =>
      have htail := ih (Nat.lt_of_succ_lt_succ h)
      simp only [List.set_cons_succ, List.sum_cons, List.getD_cons_succ]
      omega

/-- The DC-removed value is the difference of two numbers in [0, m], the newest sum and the floor of
the mean of the ring (R191). -/
theorem natAbs_sub_mean_le {l : List Nat} {x m : Nat} (hx : x ≤ m) (hl : ∀ v ∈ l, v ≤ m) :
    ((x : Int) - Int.fdiv (l.sum : Nat) l.length).natAbs ≤ m := by
  have hsum : l.sum ≤ l.length * m := by simpa using List.sum_le_card_nsmul l m hl
  have hmean : l.sum / l.length ≤ m := Nat.div_le_of_le_mul hsum
  rw [← Int.ofNat_fdiv]
  generalize l.sum / l.length = mean at hmean ⊢
  omega

/-! ## The conversion keeps within one (spec/43_mixer_output.md R194, spec/10_state.md R36) -/

theorem roundHalfEven_le {n d m : Nat} (hd : 0 < d) (h : n ≤ m * d) : roundHalfEven n d ≤ m := by
  have hq : n / d ≤ m := Nat.div_le_of_le_mul (by rwa [Nat.mul_comm])
  have hdm := Nat.div_add_mod n d
  have hr : n / d = m → n % d = 0 := by
    intro e
    rw [e, Nat.mul_comm] at hdm
    omega
  unfold roundHalfEven
  split_ifs <;> omega

/-- `leadShift` gives at most the last shift it looks at, and every shift it passes is too small. -/
theorem leadShift_spec (n d fuel k : Nat) :
    k ≤ leadShift n d fuel k ∧ leadShift n d fuel k ≤ k + fuel ∧
      ∀ j, k ≤ j → j < leadShift n d fuel k → n * 2 ^ j < d := by
  induction fuel generalizing k with
  | zero => exact ⟨le_rfl, le_rfl, fun j hkj hj => absurd hj (Nat.not_lt.mpr hkj)⟩
  | succ fuel ih =>
    unfold leadShift
    split
    · exact ⟨le_rfl, Nat.le_add_right _ _, fun j hkj hj => absurd hj (Nat.not_lt.mpr hkj)⟩
    next hlt =>
      obtain ⟨hlo, hhi, hpass⟩ := ih (k + 1)
      refine ⟨by omega, by omega, fun j hkj hj => ?_⟩
      obtain rfl | hkj := Nat.eq_or_lt_of_le hkj
      · exact Nat.not_le.mp hlt
      · exact hpass j hkj hj

/-- The magnitude bits of a quotient of at most 1 are at most those of 1.0. -/
theorem magnitudeBits_le {n d : Nat} (hd : 0 < d) (h : n ≤ d) : magnitudeBits n d ≤ 0x3F800000 := by
  obtain ⟨-, hhi, hpass⟩ := leadShift_spec n d 126 0
  unfold magnitudeBits
  generalize leadShift n d 126 0 = k at hhi hpass ⊢
  cases k with
  | zero =>
    have hround : roundHalfEven (n * 2 ^ (23 + 0)) d ≤ 2 ^ 23 :=
      roundHalfEven_le hd (by rw [Nat.mul_comm]; exact Nat.mul_le_mul_left _ h)
    omega
  | succ j =>
    have hlt : n * 2 ^ j < d := hpass j (Nat.zero_le j) (Nat.lt_succ_self j)
    have hround : roundHalfEven (n * 2 ^ (23 + (j + 1))) d ≤ 2 ^ 24 := by
      refine roundHalfEven_le hd ?_
      calc n * 2 ^ (23 + (j + 1)) = 2 ^ 24 * (n * 2 ^ j) := by ring
        _ ≤ 2 ^ 24 * d := Nat.mul_le_mul_left _ hlt.le
    omega

/-- The sign bit apart, the bits of a quotient of magnitude at most 1 are at most those of 1.0. -/
theorem binary32_range {n : Int} {d : Nat} (hd : 0 < d) (h : n.natAbs ≤ d) :
    (binary32 n d).toNat % 2 ^ 31 ≤ 0x3F800000 := by
  have hm := magnitudeBits_le hd h
  unfold binary32
  split
  · rw [BitVec.toNat_ofNat]
    omega
  · split
    · split <;> decide
    · rw [BitVec.toNat_ofNat]
      omega

theorem sampleOf_range (out : Int) {scale : Nat} (h : 1 ≤ scale) :
    (sampleOf out scale).toNat % 2 ^ 31 ≤ 0x3F800000 := by
  refine binary32_range h ?_
  unfold clampInt
  omega

/-! ## Mix and CLOCK keep the invariant -/

/-- CLOCK leaves the register file, `LATCH`, `FILT`, the overrides, the configuration and the host port
alone (R214). -/
@[simp] theorem clockSample_frame (s : State) :
    (clockSample s).regs = s.regs ∧ (clockSample s).latch = s.latch ∧
    (clockSample s).filt = s.filt ∧ (clockSample s).ovr = s.ovr ∧ (clockSample s).cfg = s.cfg ∧
    (clockSample s).pending = s.pending ∧ (clockSample s).results = s.results ∧
    (clockSample s).fixedResets = s.fixedResets ∧ (clockSample s).fixedReads = s.fixedReads ∧
    (clockSample s).drawn = s.drawn := by
  simp [clockSample]

theorem clockSample_acc (s : State) :
    (clockSample s).acc =
      (clockTicks s.cfg.internalRate (resolveToneResets s)).acc - s.cfg.internalRate := by
  simp [clockSample]

theorem tickInv_mix {s : State} (hs : s.TickInv) : (mix s).TickInv := by
  obtain ⟨-, -, -, hlvl, hwin, hscale⟩ := (config_wf_iff s.cfg).mp hs.cfg_wf
  have hlen : s.dch.length = s.cfg.dcWindow := hs.dch_length
  have hx : s.mixedSum ≤ 3 * 65535 := mixedSum_le hlvl
  have hring : ∀ v ∈ s.dch.set s.dci s.mixedSum, v ≤ 3 * 65535 := fun v hv =>
    (List.mem_or_eq_of_mem_set hv).elim (hs.dch_le v) (fun e => e ▸ hx)
  have hsum : (dcUpdate s.mixedSum s).dcs = ((s.dch.set s.dci s.mixedSum).sum : Nat) := by
    have hdcs : s.dcs = (s.dch.sum : Nat) := hs.dcs_eq
    have hset := sum_set_add_getD s.dch (i := s.dci) (hlen ▸ hs.dci_lt) s.mixedSum
    rw [dcUpdate_dcs, hdcs]
    omega
  have hy : (dcRemoved s.mixedSum (dcUpdate s.mixedSum s)).natAbs ≤ 3 * 65535 := by
    have hmean := natAbs_sub_mean_le hx hring
    rw [List.length_set, hlen] at hmean
    rwa [dcRemoved, hsum]
  exact { hs with
    dch_length := List.length_set.trans hlen
    dci_lt := Nat.mod_lt _ hwin
    dcs_eq := hsum
    dch_le := hring
    fy1_le := hy
    fy2_le := hs.fy1_le
    sample_range := sampleOf_range _ hscale }

/-- CLOCK puts back what it uses: `ACC` is short of the sample boundary again and `GATE` is clear. -/
theorem inv_clockSample {s : State} (hs : s.Inv) : (clockSample s).Inv := by
  obtain ⟨htick, hacc, -⟩ := (inv_iff_tickInv s).mp hs
  obtain ⟨-, hrate, hle, -, -, -⟩ := (config_wf_iff s.cfg).mp hs.cfg_wf
  have hloop := tickInv_clockTicks s.cfg.internalRate (tickInv_resolveToneResets htick)
  have hend := clockTicks_acc_lt s.cfg.internalRate (s := resolveToneResets s) (by simpa using hacc)
  refine (inv_iff_tickInv _).mpr ⟨?_, ?_, rfl⟩
  · unfold clockSample
    generalize clockTicks s.cfg.internalRate (resolveToneResets s) = u at hloop ⊢
    have hu : ({ u with acc := u.acc - u.cfg.internalRate } : State).TickInv := { hloop with }
    exact { tickInv_mix hu with }
  · simp only [resolveToneResets_frame] at hend
    simp only [clockSample_acc, clockSample_frame]
    omega

/-! ## Every step keeps the invariant -/

theorem inv_exec {i : Instr} {s t : State} (hs : s.Inv) (h : exec i s = .next t) : t.Inv := by
  by_cases hclock : i = .clock
  · subst hclock
    obtain rfl : clockSample s = t := Host.Outcome.next.inj h
    exact inv_clockSample hs
  · by_cases hreset : i = .reset
    · subst hreset
      obtain rfl : resetWith (drawnReset s) (useReset s) = t := Host.Outcome.next.inj h
      exact inv_resetWith _ (inv_useReset hs)
    · exact inv_of_hostUpdate hs (hostUpdate_of_exec hclock hreset h)

/-- What a completing step does: nothing with no word issued, else the operation at the front. -/
theorem step_cases {s t : State} (h : step s = .next t) :
    (s.pending = [] ∧ t = s) ∨
      ∃ i rest, decode s.pending = .instr i rest ∧ exec i { s with pending := rest } = .next t := by
  unfold step at h
  split at h
  case isFalse => cases h
  case isTrue =>
    split at h
    case isTrue hp => exact .inl ⟨hp, (Host.Outcome.next.inj h).symm⟩
    case isFalse =>
      split at h
      next i rest hd => exact .inr ⟨i, rest, hd, h⟩
      next => cases h

/-- Settles O10: taking words off the queue touches nothing the invariant speaks of, and every
operation is a host update, CLOCK or RESET, each of which keeps it. -/
theorem invariantKeptByEveryStep : Obligations.InvariantKeptByEveryStep := by
  intro s t hs h
  obtain ⟨-, rfl⟩ | ⟨i, rest, -, hexec⟩ := step_cases h
  · exact hs
  · exact inv_exec (s := { s with pending := rest }) { hs with } hexec

end Sys2Proof.Machine
end

section
/-!
PROOFS. Who writes the register file and `LATCH` (spec/10_state.md R26), and that results depend on the
visible state alone (R39).
-/

namespace Sys2Proof.Machine

/-! ## The writers of the register file and of `LATCH` (spec/10_state.md R26) -/

/-- RESET leaves the results handed back (R276; log 6). -/
@[simp] theorem resetWith_results (d : ResetDraw) (s : State) :
    (resetWith d s).results = s.results := rfl

/-- What each operation does to the register file and `LATCH`: the writers, each with its own update,
and the operations that leave both alone. -/
inductive AccessUpdate (s : State) : Instr → State → Prop
  | latch (a : Byte) : AccessUpdate s (.latch a) (setLatch a s)
  | rdreg (a : Byte) : AccessUpdate s (.rdreg a) (returnReg a (setLatch a s))
  | wrreg {i : Instr} {a d : Byte} (henc : encode i = [opWord 0x04 a d]) :
      AccessUpdate s i (latchedWrite a d s)
  | wrdata (d : Byte) : AccessUpdate s (.wrdata d) (writeReg s.latch d s)
  | loadregs (v0 v1 v2 v3 : Word) :
      AccessUpdate s (.loadregs v0 v1 v2 v3) (loadFrame (frameOfWords v0 v1 v2 v3) s)
  | reset (t : State) : AccessUpdate s .reset t
  | other {i : Instr} {t : State} (hregs : t.regs = s.regs) (hlatch : t.latch = s.latch) :
      AccessUpdate s i t

theorem accessUpdate_of_exec {i : Instr} {s t : State} (h : exec i s = .next t) :
    AccessUpdate s i t :=
  match i, h with
  | .latch a, rfl => .latch a
  | .rdreg a, rfl => .rdreg a
  | .wrregR0 _, rfl | .wrregR1 _, rfl | .wrregR2 _, rfl | .wrregR3 _, rfl | .wrregR4 _, rfl
  | .wrregR5 _, rfl | .wrregR6 _, rfl | .wrregR7 _, rfl | .wrregR8 _, rfl | .wrregR9 _, rfl
  | .wrregR10 _, rfl | .wrregR11 _, rfl | .wrregR12 _, rfl | .wrregR13 _, rfl | .wrregR14 _, rfl
  | .wrregR15 _, rfl | .wrregOor128 _ _, rfl | .wrregOor64 _ _, rfl | .wrregOor32 _ _, rfl
  | .wrregOor16 _ _, rfl => .wrreg rfl
  | .wrdata d, rfl => .wrdata d
  | .loadregs v0 v1 v2 v3, rfl => .loadregs v0 v1 v2 v3
  | .reset, _ => .reset t
  | .rddata, rfl => .other (returnReg_frame _ _).1 (returnReg_frame _ _).2.1
  | .clock, rfl => .other (clockSample_frame s).1 (clockSample_frame s).2.1
  | .nop, rfl | .getsample, rfl | .dumpregs, rfl | .setfilter _, rfl | .toneresetA, rfl
  | .toneresetB, rfl | .toneresetC, rfl | .envtrig, rfl | .setovrA _, rfl | .setovrB _, rfl
  | .setovrC _, rfl | .clrovrA, rfl | .clrovrB, rfl | .clrovrC, rfl => .other rfl rfl

theorem latchedWrite_latch (a d : Byte) (s : State) : (latchedWrite a d s).latch = a := by
  simp [latchedWrite]

/-- WRREG writes the register file at a mapped address only (R248). -/
theorem lt_of_latchedWrite_regs_ne {a d : Byte} {s : State}
    (h : (latchedWrite a d s).regs ≠ s.regs) : a.toNat < 16 := by
  by_contra hge
  rw [latchedWrite, writeReg_of_ge (Nat.not_lt.mp hge)] at h
  exact h rfl

/-- Settles O17: the access update each operation makes names the writer. -/
theorem registerFileAndLatchHaveNoOtherWriter :
    Obligations.RegisterFileAndLatchHaveNoOtherWriter := by
  intro i s t _ h
  cases accessUpdate_of_exec h with
  | latch a => exact ⟨fun hne => absurd rfl hne, fun _ => .inl rfl⟩
  | rdreg a =>
    exact ⟨fun hne => absurd (returnReg_frame a (setLatch a s)).1 hne,
      fun _ => .inr (.inl (by simp))⟩
  | wrreg henc =>
    refine ⟨fun hne => .inl ?_, fun _ => .inr (.inr (.inl ?_))⟩
    · exact ⟨⟨_, lt_of_latchedWrite_regs_ne hne⟩, _, by simpa using henc⟩
    · exact ⟨_, by rw [latchedWrite_latch, henc]⟩
  | wrdata d =>
    exact ⟨fun _ => .inr (.inl ⟨d, rfl⟩), fun hne => absurd (writeReg_frame s.latch d s).1 hne⟩
  | loadregs v0 v1 v2 v3 =>
    exact ⟨fun _ => .inr (.inr (.inl ⟨v0, v1, v2, v3, rfl⟩)),
      fun hne => absurd (loadFrame_frame _ s).1 hne⟩
  | reset => exact ⟨fun _ => .inr (.inr (.inr rfl)), fun _ => .inr (.inr (.inr rfl))⟩
  | other hregs hlatch => exact ⟨fun hne => absurd hregs hne, fun hne => absurd hlatch hne⟩

/-! ## Results depend on the visible state alone (spec/10_state.md R39) -/

/-- What an operation hands back in a state (spec/30_encoding.md R82, column "Result"). -/
def resultsOf : Instr → State → List Result
  | .rddata, s => [.byte (readRegValue s.latch s)]
  | .rdreg a, s => [.byte (readRegValue a s)]
  | .getsample, s => [.sample s.sample]
  | .dumpregs, s => [.frame s.regs]
  | _, _ => []

/-- The byte read at an address depends on the register file and the supply of read draws alone. -/
theorem readRegValue_congr {s₁ s₂ : State} (hregs : s₁.regs = s₂.regs)
    (hreads : s₁.fixedReads = s₂.fixedReads) (hdrawn : s₁.drawn = s₂.drawn) (a : Byte) :
    readRegValue a s₁ = readRegValue a s₂ := by
  simp only [readRegValue, State.reg, drawnRead, hregs, hreads, hdrawn]

theorem returnReg_results (a : Byte) (s : State) :
    (returnReg a s).results = s.results ++ [.byte (readRegValue a s)] := by
  simp [returnReg]

/-- `resultsOf` is what an operation appends. -/
theorem exec_results {i : Instr} {s t : State} (h : exec i s = .next t) :
    t.results = s.results ++ resultsOf i s :=
  match i, h with
  | .rddata, rfl => returnReg_results s.latch s
  | .rdreg a, rfl => returnReg_results a (setLatch a s)
  | .getsample, rfl | .dumpregs, rfl => rfl
  | .clock, rfl | .reset, rfl | .wrdata _, rfl | .loadregs _ _ _ _, rfl => by simp [resultsOf]
  | .wrregR0 _, rfl | .wrregR1 _, rfl | .wrregR2 _, rfl | .wrregR3 _, rfl | .wrregR4 _, rfl
  | .wrregR5 _, rfl | .wrregR6 _, rfl | .wrregR7 _, rfl | .wrregR8 _, rfl | .wrregR9 _, rfl
  | .wrregR10 _, rfl | .wrregR11 _, rfl | .wrregR12 _, rfl | .wrregR13 _, rfl | .wrregR14 _, rfl
  | .wrregR15 _, rfl | .wrregOor128 _ _, rfl | .wrregOor64 _ _, rfl | .wrregOor32 _ _, rfl
  | .wrregOor16 _ _, rfl => by simp [resultsOf]
  | .nop, rfl | .latch _, rfl | .setfilter _, rfl | .toneresetA, rfl | .toneresetB, rfl
  | .toneresetC, rfl | .envtrig, rfl | .setovrA _, rfl | .setovrB _, rfl | .setovrC _, rfl
  | .clrovrA, rfl | .clrovrB, rfl | .clrovrC, rfl => (List.append_nil _).symm

/-- What an operation hands back is a function of the visible state and the supply of read draws. -/
theorem resultsOf_congr {s₁ s₂ : State} (hregs : s₁.regs = s₂.regs) (hlatch : s₁.latch = s₂.latch)
    (hsample : s₁.sample = s₂.sample) (hreads : s₁.fixedReads = s₂.fixedReads)
    (hdrawn : s₁.drawn = s₂.drawn) (i : Instr) : resultsOf i s₁ = resultsOf i s₂ := by
  have hread := readRegValue_congr hregs hreads hdrawn
  unfold resultsOf
  split
  next => rw [hlatch, hread]
  next a => rw [hread]
  next => rw [hsample]
  next => rw [hregs]
  next => rfl

/-- Settles O18: the results grow by what `resultsOf` reads off the visible state. -/
theorem hiddenStateIsNotObservable : Obligations.HiddenStateIsNotObservable := by
  intro i s₁ s₂ t₁ t₂ hregs hlatch hsample hresults hreads hdrawn h₁ h₂
  rw [exec_results h₁, exec_results h₂, hresults,
    resultsOf_congr hregs hlatch hsample hreads hdrawn]

end Sys2Proof.Machine
end

section
/-!
PROOFS. Operations take effect in issue order (spec/20_memory.md R71): issuing further words changes
nothing about the operation at the front of the queue (log 5).
-/

namespace Sys2Proof

/-! ## The decoder reads the front of the queue (spec/30_encoding.md R86) -/

/-- Where `x` is an operation, `y` is the same one with the words `us` left after it. A rejected `x`
says nothing about `y`: further words complete a truncated LOADREGS. -/
def Decoded.ExtendsBy (us : List Word) (x y : Decoded) : Prop :=
  ∀ i rest, x = .instr i rest → y = .instr i (rest ++ us)

namespace Decoded.ExtendsBy

variable {us : List Word}

theorem instr (i : Instr) (rest : List Word) :
    ExtendsBy us (.instr i rest) (.instr i (rest ++ us)) := by
  rintro _ _ ⟨⟩
  rfl

theorem reject (r : Reject) (y : Decoded) : ExtendsBy us (.reject r) y := nofun

/-- A check the words must pass before an operation is read. -/
theorem guarded {c : Prop} [Decidable c] {x y : Decoded} (r : Reject) (h : ExtendsBy us x y) :
    ExtendsBy us (if c then x else .reject r) (if c then y else .reject r) := by
  split
  · exact h
  · exact reject r _

theorem bare (a d : Byte) (i : Instr) (rest : List Word) :
    ExtendsBy us (decodeBare a d i rest) (decodeBare a d i (rest ++ us)) :=
  guarded _ (instr i rest)

theorem channel (a : Byte) (onA onB onC : Instr) (rest : List Word) :
    ExtendsBy us (decodeChannel a onA onB onC rest) (decodeChannel a onA onB onC (rest ++ us)) := by
  unfold decodeChannel
  split
  · exact instr onA rest
  · exact instr onB rest
  · exact instr onC rest
  · exact reject _ _

theorem frame : ∀ rest : List Word, ExtendsBy us (decodeFrame rest) (decodeFrame (rest ++ us))
  | v0 :: v1 :: v2 :: v3 :: rest => instr (.loadregs v0 v1 v2 v3) rest
  | [] | [_] | [_, _] | [_, _, _] => reject _ _

theorem op (op a d : Byte) (rest : List Word) :
    ExtendsBy us (decodeOp op a d rest) (decodeOp op a d (rest ++ us)) := by
  unfold decodeOp
  generalize op.toNat = n
  match n with
  | 0x00 | 0x03 | 0x06 | 0x07 | 0x09 | 0x0C | 0x0F => exact bare a d _ rest
  | 0x01 | 0x02 | 0x05 => exact guarded _ (instr _ rest)
  | 0x04 => exact instr _ rest
  | 0x08 => exact guarded _ (frame rest)
  | 0x0A =>
    refine guarded _ ?_
    split
    · exact instr _ rest
    · exact instr _ rest
    · exact reject _ _
  | 0x0B | 0x0D | 0x0E => exact guarded _ (channel a _ _ _ rest)
  | n + 0x10 => exact reject _ _

end Decoded.ExtendsBy

/-- An operation is decoded from its own words, whatever follows them. -/
theorem decode_append {ws rest : List Word} {i : Instr} (us : List Word)
    (h : decode ws = .instr i rest) : decode (ws ++ us) = .instr i (rest ++ us) :=
  match ws, h with
  | _ :: _, h => Decoded.ExtendsBy.guarded _ (.op _ _ _ _) _ _ h

namespace Machine

/-! ## No operation looks at the words still to come (spec/20_memory.md R71) -/

section Commutes

variable (ws : List Word)

theorem writeReg_hostIssue (a d : Byte) (s : State) :
    writeReg a d (hostIssue ws s) = hostIssue ws (writeReg a d s) := by
  unfold writeReg writeEffect
  split_ifs
  · rfl
  · rfl
  · rfl

theorem latchedWrite_hostIssue (a d : Byte) (s : State) :
    latchedWrite a d (hostIssue ws s) = hostIssue ws (latchedWrite a d s) :=
  writeReg_hostIssue ws a d (setLatch a s)

theorem loadReg_hostIssue (f : Vector Byte 16) (i : Fin 16) (s : State) :
    loadReg f (hostIssue ws s) i = hostIssue ws (loadReg f s i) := by
  unfold loadReg
  split
  · rfl
  · exact writeReg_hostIssue ws _ _ s

theorem loadFrame_hostIssue (f : Vector Byte 16) (s : State) :
    loadFrame f (hostIssue ws s) = hostIssue ws (loadFrame f s) :=
  List.foldl_hom (hostIssue ws) fun t i => loadReg_hostIssue ws f i t

theorem useRead_hostIssue (s : State) : useRead (hostIssue ws s) = hostIssue ws (useRead s) := by
  unfold useRead
  simp only [hostIssue_frame]
  split
  · rfl
  · rfl

theorem useReset_hostIssue (s : State) : useReset (hostIssue ws s) = hostIssue ws (useReset s) := by
  unfold useReset
  simp only [hostIssue_frame]
  split
  · rfl
  · rfl

theorem returnReg_hostIssue (a : Byte) (s : State) :
    returnReg a (hostIssue ws s) = hostIssue ws (returnReg a s) := by
  have hstate : readRegState a (hostIssue ws s) = hostIssue ws (readRegState a s) := by
    unfold readRegState
    split
    · rfl
    · exact useRead_hostIssue ws s
  exact congrArg (handBack (.byte (readRegValue a s))) hstate

theorem toneStep_hostIssue (ch : Channel) (s : State) :
    toneStep ch (hostIssue ws s) = hostIssue ws (toneStep ch s) := by
  unfold toneStep
  rw [apply_ite (hostIssue ws)]
  rfl

theorem toneTick_hostIssue (s : State) : toneTick (hostIssue ws s) = hostIssue ws (toneTick s) := by
  simp only [toneTick, toneStep_hostIssue]

theorem noiseTick_hostIssue (s : State) :
    noiseTick (hostIssue ws s) = hostIssue ws (noiseTick s) := by
  simp only [noiseTick, apply_ite (hostIssue ws)]
  rfl

theorem envTick_hostIssue (s : State) : envTick (hostIssue ws s) = hostIssue ws (envTick s) := by
  unfold envTick
  rw [apply_ite (hostIssue ws)]
  rfl

theorem tick_hostIssue (s : State) : tick (hostIssue ws s) = hostIssue ws (tick s) := by
  unfold tick
  rw [toneTick_hostIssue, noiseTick_hostIssue, envTick_hostIssue]
  rfl

theorem tickAndCount_hostIssue (s : State) :
    tickAndCount (hostIssue ws s) = hostIssue ws (tickAndCount s) := by
  unfold tickAndCount
  rw [tick_hostIssue]
  rfl

theorem clockTicks_hostIssue (fuel : Nat) (s : State) :
    clockTicks fuel (hostIssue ws s) = hostIssue ws (clockTicks fuel s) := by
  induction fuel generalizing s with
  | zero => rfl
  | succ n ih =>
    simp only [clockTicks, tickAndCount_hostIssue, ih, apply_ite (hostIssue ws)]
    rfl

theorem resolveToneReset_hostIssue (ch : Channel) (s : State) :
    resolveToneReset ch (hostIssue ws s) = hostIssue ws (resolveToneReset ch s) := by
  unfold resolveToneReset
  rw [apply_ite (hostIssue ws)]
  rfl

theorem resolveToneResets_hostIssue (s : State) :
    resolveToneResets (hostIssue ws s) = hostIssue ws (resolveToneResets s) := by
  simp only [resolveToneResets, resolveToneReset_hostIssue]

theorem clockSample_hostIssue (s : State) :
    clockSample (hostIssue ws s) = hostIssue ws (clockSample s) := by
  simp only [clockSample, hostIssue_frame, resolveToneResets_hostIssue, clockTicks_hostIssue]
  generalize clockTicks s.cfg.internalRate (resolveToneResets s) = u
  rfl

theorem resetWith_useReset_hostIssue (s : State) :
    resetWith (drawnReset (hostIssue ws s)) (useReset (hostIssue ws s)) =
      hostIssue ws (resetWith (drawnReset s) (useReset s)) := by
  rw [useReset_hostIssue]
  rfl

/-- Issuing words before an operation or after it comes to the same. -/
theorem exec_hostIssue {i : Instr} {s t : State} (h : exec i s = .next t) :
    exec i (hostIssue ws s) = .next (hostIssue ws t) :=
  match i, h with
  | .wrdata d, rfl => congrArg Host.Outcome.next (writeReg_hostIssue ws s.latch d s)
  | .rddata, rfl => congrArg Host.Outcome.next (returnReg_hostIssue ws s.latch s)
  | .rdreg a, rfl => congrArg Host.Outcome.next (returnReg_hostIssue ws a (setLatch a s))
  | .wrregR0 d, rfl | .wrregR1 d, rfl | .wrregR2 d, rfl | .wrregR3 d, rfl | .wrregR4 d, rfl
  | .wrregR5 d, rfl | .wrregR6 d, rfl | .wrregR7 d, rfl | .wrregR8 d, rfl | .wrregR9 d, rfl
  | .wrregR10 d, rfl | .wrregR11 d, rfl | .wrregR12 d, rfl | .wrregR13 d, rfl | .wrregR14 d, rfl
  | .wrregR15 d, rfl => congrArg Host.Outcome.next (latchedWrite_hostIssue ws _ d s)
  | .wrregOor128 a d, rfl | .wrregOor64 a d, rfl | .wrregOor32 a d, rfl
  | .wrregOor16 a d, rfl => congrArg Host.Outcome.next (latchedWrite_hostIssue ws a d s)
  | .loadregs _ _ _ _, rfl => congrArg Host.Outcome.next (loadFrame_hostIssue ws _ s)
  | .clock, rfl => congrArg Host.Outcome.next (clockSample_hostIssue ws s)
  | .reset, rfl => congrArg Host.Outcome.next (resetWith_useReset_hostIssue ws s)
  | .nop, rfl | .latch _, rfl | .getsample, rfl | .dumpregs, rfl | .setfilter _, rfl
  | .toneresetA, rfl | .toneresetB, rfl | .toneresetC, rfl | .envtrig, rfl | .setovrA _, rfl
  | .setovrB _, rfl | .setovrC _, rfl | .clrovrA, rfl | .clrovrB, rfl | .clrovrC, rfl => rfl

end Commutes

/-- A step on an operation at the front of the queue performs it (R71). -/
theorem step_of_decode {s : State} {i : Instr} {rest : List Word} (hwf : s.cfg.wf = true)
    (h : decode s.pending = .instr i rest) : step s = exec i { s with pending := rest } := by
  have hne : s.pending ≠ [] := by
    intro hp
    rw [hp] at h
    cases h
  simp only [step, hwf, if_true, if_neg hne, h]

theorem cfg_wf_of_step {s t : State} (h : step s = .next t) : s.cfg.wf = true := by
  by_contra hwf
  rw [step, if_neg hwf] at h
  cases h

/-- Settles O14: the decoder takes the same operation off the longer queue, and no operation looks at
the words still to come. -/
theorem laterOperationsDoNotAffectEarlierOnes :
    Obligations.LaterOperationsDoNotAffectEarlierOnes := by
  intro s t ws hne h
  obtain ⟨hempty, -⟩ | ⟨i, rest, hdecode, hexec⟩ := step_cases h
  · exact absurd hempty hne
  · have hwf := cfg_wf_of_step h
    calc step (hostIssue ws s)
        = exec i (hostIssue ws { s with pending := rest }) :=
          step_of_decode (s := hostIssue ws s) hwf (decode_append ws hdecode)
      _ = .next (hostIssue ws t) := exec_hostIssue ws hexec

end Machine

end Sys2Proof
end

section
/-!
PROOFS. The decoder and the encoder are inverse to each other (spec/30_encoding.md R80 to R86): what
the encoder writes is read back, and what is read is what the encoder writes.
-/

namespace Sys2Proof

open Machine

/-! ## The WRREG rows (spec/30_encoding.md R92) -/

theorem byte_eq_ofNat (a : Byte) : a = BitVec.ofNat 8 a.toNat := (BitVec.ofNat_toNat 8 a).symm

/-- The out-of-range rows by the address ranges of R92. -/
theorem decodeWrreg_of_ge {a : Byte} (h : 16 ≤ a.toNat) (d : Byte) :
    decodeWrreg a d =
      if 128 ≤ a.toNat then .wrregOor128 a d
      else if 64 ≤ a.toNat then .wrregOor64 a d
      else if 32 ≤ a.toNat then .wrregOor32 a d
      else .wrregOor16 a d := by
  have hbits : decodeWrreg a d =
      if a.getLsbD 7 then .wrregOor128 a d
      else if a.getLsbD 6 then .wrregOor64 a d
      else if a.getLsbD 5 then .wrregOor32 a d
      else .wrregOor16 a d := by
    obtain ⟨n, hn⟩ := Nat.exists_eq_add_of_le' h
    simp only [decodeWrreg, hn]
  have hlt := a.isLt
  have hbit {k : Nat} (hk : a.toNat < 2 ^ (k + 1)) : a.getLsbD k = true ↔ 2 ^ k ≤ a.toNat :=
    ⟨Nat.ge_two_pow_of_testBit, fun hle => Nat.testBit_of_two_pow_le_and_two_pow_add_one_gt hle hk⟩
  rw [hbits]
  refine ite_congr (propext (hbit (k := 7) hlt)) (fun _ => rfl) fun h7 => ?_
  refine ite_congr (propext (hbit (k := 6) (Nat.not_le.mp h7))) (fun _ => rfl) fun h6 => ?_
  exact ite_congr (propext (hbit (k := 5) (Nat.not_le.mp h6))) (fun _ => rfl) fun _ => rfl

/-- The row of an address is well formed, encoded with that address, and performs its write
(R234). -/
theorem decodeWrreg_spec (a d : Byte) :
    (decodeWrreg a d).wf = true ∧ encode (decodeWrreg a d) = [opWord 0x04 a d] ∧
      ∀ s, exec (decodeWrreg a d) s = .next (latchedWrite a d s) := by
  by_cases h : 16 ≤ a.toNat
  · rw [decodeWrreg_of_ge h]
    split_ifs
    all_goals
      refine ⟨?_, rfl, fun _ => rfl⟩
      simp only [Instr.wf, Bool.and_eq_true, decide_eq_true_eq]
      omega
  · rw [byte_eq_ofNat a]
    generalize a.toNat = n at h ⊢
    interval_cases n <;> exact ⟨rfl, rfl, fun _ => rfl⟩

theorem decode_wrreg {a d : Byte} {i : Instr} (h : decodeWrreg a d = i) (rest : List Word) :
    decode (opWord 0x04 a d :: rest) = .instr i rest :=
  h ▸ decode_opWord 0x04 a d rest

/-! ## Decoding what the encoder writes -/

theorem decode_encode {i : Instr} (rest : List Word) (h : i.wf = true) :
    decode (encode i ++ rest) = .instr i rest :=
  match i, h with
  | .wrregOor128 a d, h => by
    have hlo : 128 ≤ a.toNat := by simpa [Instr.wf] using h
    refine decode_wrreg ?_ rest
    rw [decodeWrreg_of_ge (by omega), if_pos hlo]
  | .wrregOor64 a d, h => by
    obtain ⟨hlo, hhi⟩ : 64 ≤ a.toNat ∧ a.toNat < 128 := by simpa [Instr.wf] using h
    refine decode_wrreg ?_ rest
    rw [decodeWrreg_of_ge (by omega), if_neg (by omega), if_pos hlo]
  | .wrregOor32 a d, h => by
    obtain ⟨hlo, hhi⟩ : 32 ≤ a.toNat ∧ a.toNat < 64 := by simpa [Instr.wf] using h
    refine decode_wrreg ?_ rest
    rw [decodeWrreg_of_ge (by omega), if_neg (by omega), if_neg (by omega), if_pos hlo]
  | .wrregOor16 a d, h => by
    obtain ⟨hlo, hhi⟩ : 16 ≤ a.toNat ∧ a.toNat < 32 := by simpa [Instr.wf] using h
    refine decode_wrreg ?_ rest
    rw [decodeWrreg_of_ge hlo, if_neg (by omega), if_neg (by omega), if_neg (by omega)]
  | .setovrA l, _ | .setovrB l, _ | .setovrC l, _ =>
    (decode_opWord _ _ (levelByte l) rest).trans (by simp [decodeOp, decodeChannel])
  | .setfilter true, _ | .setfilter false, _ => decode_opWord _ _ _ rest
  | .loadregs v0 v1 v2 v3, _ => decode_opWord _ _ _ (v0 :: v1 :: v2 :: v3 :: rest)
  | .nop, _ | .latch _, _ | .wrdata _, _ | .rddata, _ | .wrregR0 _, _ | .wrregR1 _, _
  | .wrregR2 _, _ | .wrregR3 _, _ | .wrregR4 _, _ | .wrregR5 _, _ | .wrregR6 _, _ | .wrregR7 _, _
  | .wrregR8 _, _ | .wrregR9 _, _ | .wrregR10 _, _ | .wrregR11 _, _ | .wrregR12 _, _
  | .wrregR13 _, _ | .wrregR14 _, _ | .wrregR15 _, _ | .rdreg _, _ | .clock, _ | .getsample, _
  | .dumpregs, _ | .toneresetA, _ | .toneresetB, _ | .toneresetC, _ | .envtrig, _ | .clrovrA, _
  | .clrovrB, _ | .clrovrC, _ | .reset, _ => decode_opWord _ _ _ rest

/-- Settles O1: the words of each constructor are decoded back, `decode_encode`. -/
theorem decodeAfterEncodeGivesInstruction : Obligations.DecodeAfterEncodeGivesInstruction :=
  fun _ rest h => decode_encode rest h

/-! ## Illegal words (spec/30_encoding.md R87) -/

theorem opField_toNat (w : Word) : (opField w).toNat = w.toNat / 2 ^ 24 := by
  have hlt := w.isLt
  simp only [opField, BitVec.extractLsb'_toNat, Nat.shiftRight_eq_div_pow]
  omega

theorem aField_toNat (w : Word) : (aField w).toNat = w.toNat / 2 ^ 16 % 2 ^ 8 := by
  simp only [aField, BitVec.extractLsb'_toNat, Nat.shiftRight_eq_div_pow]

theorem dField_toNat (w : Word) : (dField w).toNat = w.toNat / 2 ^ 8 % 2 ^ 8 := by
  simp only [dField, BitVec.extractLsb'_toNat, Nat.shiftRight_eq_div_pow]

theorem zField_toNat (w : Word) : (zField w).toNat = w.toNat % 2 ^ 8 := by
  simp only [zField, BitVec.extractLsb'_toNat, Nat.shiftRight_zero]

theorem levelTop_eq_zero_iff (d : Byte) : d.extractLsb' 5 3 = 0 ↔ d.toNat < 0x20 := by
  have hlt := d.isLt
  rw [BitVec.toNat_eq, BitVec.extractLsb'_toNat, Nat.shiftRight_eq_div_pow]
  simp only [BitVec.ofNat_eq_ofNat, BitVec.toNat_ofNat]
  omega

/-- The six items of R87 on the numbers in the fields. -/
theorem illegalWord_iff (w : Word) :
    illegalWord w = true ↔
      0x10 ≤ (opField w).toNat ∨ (zField w).toNat ≠ 0 ∨
      ((opField w).toNat ∈ zeroA ∧ (aField w).toNat ≠ 0) ∨
      ((opField w).toNat ∈ zeroD ∧ (dField w).toNat ≠ 0) ∨
      ((opField w).toNat ∈ [0x0B, 0x0D, 0x0E] ∧ 3 ≤ (aField w).toNat) ∨
      ((opField w).toNat = 0x0A ∧ 2 ≤ (dField w).toNat) ∨
      ((opField w).toNat = 0x0D ∧ 0x20 ≤ (dField w).toNat) := by
  simp only [illegalWord, Bool.or_eq_true, Bool.and_eq_true, decide_eq_true_eq, or_assoc, ne_eq,
    levelTop_eq_zero_iff, Nat.not_lt]
  simp only [BitVec.toNat_eq]
  rfl

/-- The six items on an operation word, whose Z is 0. -/
theorem illegalWord_opWord_iff (op a d : Byte) :
    illegalWord (opWord op a d) = true ↔
      0x10 ≤ op.toNat ∨ (op.toNat ∈ zeroA ∧ a.toNat ≠ 0) ∨ (op.toNat ∈ zeroD ∧ d.toNat ≠ 0) ∨
      (op.toNat ∈ [0x0B, 0x0D, 0x0E] ∧ 3 ≤ a.toNat) ∨ (op.toNat = 0x0A ∧ 2 ≤ d.toNat) ∨
      (op.toNat = 0x0D ∧ 0x20 ≤ d.toNat) := by
  simp [illegalWord_iff]

/-! ## What the decoder says of each operation word -/

theorem levelByte_extractLsb' {d : Byte} (h : d.extractLsb' 5 3 = 0) :
    levelByte (d.extractLsb' 0 5) = d := by
  rw [BitVec.ofNat_eq_ofNat] at h
  rw [levelByte, ← h, BitVec.extractLsb'_append_extractLsb'_eq_extractLsb' (Nat.zero_add 5).symm]
  exact BitVec.extractLsb'_eq_self

theorem decodeOp_of_ge {op : Byte} (h : 0x10 ≤ op.toNat) (a d : Byte) (rest : List Word) :
    decodeOp op a d rest = .reject (.illegal .reservedOp) := by
  obtain ⟨n, hn⟩ := Nat.exists_eq_add_of_le' h
  simp only [decodeOp, hn]

/-- What an answer of the decoder says of the words `w :: rest` it was given. -/
def Decoded.Describes (w : Word) (rest : List Word) : Decoded → Prop
  | .instr i rest' => i.wf = true ∧ w :: rest = encode i ++ rest'
  | .reject (.illegal _) => illegalWord w = true
  | .reject .truncatedLoadregs => w = 0x08000000 ∧ rest.length < 4
  | .reject .noWord => False
  | .reject .partialWord => False

namespace Decoded.Describes

variable {op a d : Byte} {rest : List Word}

theorem instr {w : Word} {i : Instr} (h : i.wf = true ∧ encode i = [w]) :
    Describes w rest (.instr i rest) :=
  ⟨h.1, by rw [h.2]; rfl⟩

/-- A check of the decoder that fails on illegal words only. -/
theorem guarded {w : Word} {c : Prop} [Decidable c] {x : Decoded} (r : Illegal)
    (hx : c → Describes w rest x) (hbad : ¬ c → illegalWord w = true) :
    Describes w rest (if c then x else .reject (.illegal r)) := by
  split
  next h => exact hx h
  next h => exact hbad h

theorem aZero (hop : op.toNat ∈ zeroA) {x : Decoded} (h : Describes (opWord op 0 d) rest x) :
    Describes (opWord op a d) rest (if a = 0 then x else .reject (.illegal .fieldNotZero)) :=
  guarded _ (fun ha => ha ▸ h) fun ha =>
    (illegalWord_opWord_iff op a d).mpr (.inr (.inl ⟨hop, BitVec.toNat_ne_iff_ne.mpr ha⟩))

theorem dZero (hop : op.toNat ∈ zeroD) {x : Decoded} (h : Describes (opWord op a 0) rest x) :
    Describes (opWord op a d) rest (if d = 0 then x else .reject (.illegal .fieldNotZero)) :=
  guarded _ (fun hd => hd ▸ h) fun hd =>
    (illegalWord_opWord_iff op a d).mpr (.inr (.inr (.inl ⟨hop, BitVec.toNat_ne_iff_ne.mpr hd⟩)))

theorem bothZero (hopA : op.toNat ∈ zeroA) (hopD : op.toNat ∈ zeroD)
    {x : Decoded} (h : Describes (opWord op 0 0) rest x) :
    Describes (opWord op a d) rest
      (if a = 0 ∧ d = 0 then x else .reject (.illegal .fieldNotZero)) := by
  rw [ite_and]
  exact aZero hopA (dZero hopD h)

theorem channel (hop : op.toNat ∈ [0x0B, 0x0D, 0x0E]) {onA onB onC : Instr}
    (hA : onA.wf = true ∧ encode onA = [opWord op 0 d])
    (hB : onB.wf = true ∧ encode onB = [opWord op 1 d])
    (hC : onC.wf = true ∧ encode onC = [opWord op 2 d]) :
    Describes (opWord op a d) rest (decodeChannel a onA onB onC rest) := by
  unfold decodeChannel
  split
  next h =>
    obtain rfl : a = 0 := BitVec.eq_of_toNat_eq h
    exact instr hA
  next h =>
    obtain rfl : a = 1 := BitVec.eq_of_toNat_eq h
    exact instr hB
  next h =>
    obtain rfl : a = 2 := BitVec.eq_of_toNat_eq h
    exact instr hC
  next h0 h1 h2 =>
    exact (illegalWord_opWord_iff op a d).mpr
      (.inr (.inr (.inr (.inl ⟨hop, Nat.two_lt_of_ne h0 h1 h2⟩))))

theorem filter : Describes (opWord 0x0A a d) rest (decodeOp 0x0A a d rest) := by
  refine aZero (by decide) ?_
  split
  next h =>
    obtain rfl : d = 0 := BitVec.eq_of_toNat_eq h
    exact instr ⟨rfl, rfl⟩
  next h =>
    obtain rfl : d = 1 := BitVec.eq_of_toNat_eq h
    exact instr ⟨rfl, rfl⟩
  next h0 h1 =>
    exact (illegalWord_opWord_iff 0x0A 0 d).mpr
      (.inr (.inr (.inr (.inr (.inl ⟨rfl, Nat.one_lt_iff_ne_zero_and_ne_one.mpr ⟨h0, h1⟩⟩)))))

theorem override : Describes (opWord 0x0D a d) rest (decodeOp 0x0D a d rest) := by
  refine guarded .badLevel (fun htop => ?_) fun htop => ?_
  · have hbyte := levelByte_extractLsb' htop
    exact channel (by decide) ⟨rfl, by rw [encode, hbyte]⟩ ⟨rfl, by rw [encode, hbyte]⟩
      ⟨rfl, by rw [encode, hbyte]⟩
  · rw [levelTop_eq_zero_iff, Nat.not_lt] at htop
    exact (illegalWord_opWord_iff 0x0D a d).mpr (.inr (.inr (.inr (.inr (.inr ⟨rfl, htop⟩)))))

theorem frame : ∀ rest, Describes (opWord 0x08 0 0) rest (decodeFrame rest)
  | _ :: _ :: _ :: _ :: _ => ⟨rfl, rfl⟩
  | [] | [_] | [_, _] | [_, _, _] => ⟨rfl, by simp⟩

theorem operation (op a d : Byte) (rest : List Word) :
    Describes (opWord op a d) rest (decodeOp op a d rest) := by
  by_cases hop : 0x10 ≤ op.toNat
  · rw [decodeOp_of_ge hop]
    exact (illegalWord_opWord_iff op a d).mpr (.inl hop)
  · rw [byte_eq_ofNat op]
    generalize op.toNat = n at hop ⊢
    match n, hop with
    | 0x00, _ | 0x03, _ | 0x06, _ | 0x07, _ | 0x09, _ | 0x0C, _ | 0x0F, _ =>
      exact bothZero (by decide) (by decide) (instr ⟨rfl, rfl⟩)
    | 0x01, _ | 0x05, _ => exact dZero (by decide) (instr ⟨rfl, rfl⟩)
    | 0x02, _ => exact aZero (by decide) (instr ⟨rfl, rfl⟩)
    | 0x04, _ =>
      obtain ⟨hwf, henc, -⟩ := decodeWrreg_spec a d
      exact instr ⟨hwf, henc⟩
    | 0x08, _ => exact bothZero (by decide) (by decide) (frame rest)
    | 0x0A, _ => exact filter
    | 0x0B, _ | 0x0E, _ =>
      exact dZero (by decide) (channel (by decide) ⟨rfl, rfl⟩ ⟨rfl, rfl⟩ ⟨rfl, rfl⟩)
    | 0x0D, _ => exact override
    | n + 0x10, hn => exact absurd (Nat.le_add_left _ n) hn

end Decoded.Describes

/-- Every answer of the decoder is right about the words it was given. -/
theorem decode_describes (w : Word) (rest : List Word) :
    (decode (w :: rest)).Describes w rest := by
  refine .guarded .reservedByte (fun hz => ?_) fun hz => ?_
  · have h := Decoded.Describes.operation (opField w) (aField w) (dField w) rest
    rwa [← eq_opWord hz] at h
  · exact (illegalWord_iff w).mpr (.inr (.inl (BitVec.toNat_ne_iff_ne.mpr hz)))

/-- Settles O2: an answer that is an operation describes the words it was decoded from. -/
theorem decodedWordsAreTheEncoding : Obligations.DecodedWordsAreTheEncoding
  | w :: ws, i, rest, h => by
    have hd := decode_describes w ws
    rwa [h] at hd

end Sys2Proof
end

section
/-!
PROOFS. The opcode table (spec/30_encoding.md R82, R92) and the illegal words (R87): the rows are
disjoint, their union is the legal words, and the decoder rejects what is in none.
-/

namespace Sys2Proof

/-! ## Every operation's word is in its row -/

theorem rowMatch : ∀ i : Instr, Laws.RowMatch.Statement i
  | .nop => Laws.RowMatch.nop
  | .latch a => Laws.RowMatch.latch a
  | .wrdata d => Laws.RowMatch.wrdata d
  | .rddata => Laws.RowMatch.rddata
  | .wrregR0 d => Laws.RowMatch.wrregR0 d
  | .wrregR1 d => Laws.RowMatch.wrregR1 d
  | .wrregR2 d => Laws.RowMatch.wrregR2 d
  | .wrregR3 d => Laws.RowMatch.wrregR3 d
  | .wrregR4 d => Laws.RowMatch.wrregR4 d
  | .wrregR5 d => Laws.RowMatch.wrregR5 d
  | .wrregR6 d => Laws.RowMatch.wrregR6 d
  | .wrregR7 d => Laws.RowMatch.wrregR7 d
  | .wrregR8 d => Laws.RowMatch.wrregR8 d
  | .wrregR9 d => Laws.RowMatch.wrregR9 d
  | .wrregR10 d => Laws.RowMatch.wrregR10 d
  | .wrregR11 d => Laws.RowMatch.wrregR11 d
  | .wrregR12 d => Laws.RowMatch.wrregR12 d
  | .wrregR13 d => Laws.RowMatch.wrregR13 d
  | .wrregR14 d => Laws.RowMatch.wrregR14 d
  | .wrregR15 d => Laws.RowMatch.wrregR15 d
  | .wrregOor128 a d => Laws.RowMatch.wrregOor128 a d
  | .wrregOor64 a d => Laws.RowMatch.wrregOor64 a d
  | .wrregOor32 a d => Laws.RowMatch.wrregOor32 a d
  | .wrregOor16 a d => Laws.RowMatch.wrregOor16 a d
  | .rdreg a => Laws.RowMatch.rdreg a
  | .clock => Laws.RowMatch.clock
  | .getsample => Laws.RowMatch.getsample
  | .loadregs v0 v1 v2 v3 => Laws.RowMatch.loadregs v0 v1 v2 v3
  | .dumpregs => Laws.RowMatch.dumpregs
  | .setfilter on => Laws.RowMatch.setfilter on
  | .toneresetA => Laws.RowMatch.toneresetA
  | .toneresetB => Laws.RowMatch.toneresetB
  | .toneresetC => Laws.RowMatch.toneresetC
  | .envtrig => Laws.RowMatch.envtrig
  | .setovrA l => Laws.RowMatch.setovrA l
  | .setovrB l => Laws.RowMatch.setovrB l
  | .setovrC l => Laws.RowMatch.setovrC l
  | .clrovrA => Laws.RowMatch.clrovrA
  | .clrovrB => Laws.RowMatch.clrovrB
  | .clrovrC => Laws.RowMatch.clrovrC
  | .reset => Laws.RowMatch.reset

theorem tableRow_mem (i : Instr) : tableRow i ∈ opcodeTable := by
  cases i <;> exact List.mem_of_elem_eq_true rfl

theorem tableRow_has_of_decode {w : Word} {rest rest' : List Word} {i : Instr}
    (h : decode (w :: rest) = .instr i rest') : (tableRow i).has w = true := by
  have hd := decode_describes w rest
  rw [h] at hd
  obtain ⟨hwf, hwords⟩ := hd
  obtain ⟨v, vs, henc, hrow⟩ := rowMatch i hwf
  rw [henc] at hwords
  obtain ⟨rfl, -⟩ := List.cons.inj hwords
  exact hrow

/-! ## A word of a row is legal -/

theorem TableRow.has_iff (r : TableRow) (w : Word) : r.has w = true ↔ w &&& r.mask = r.pattern :=
  decide_eq_true_iff

theorem opField_and (v m : Word) : opField (v &&& m) = opField v &&& opField m :=
  BitVec.extractLsb'_and

theorem aField_and (v m : Word) : aField (v &&& m) = aField v &&& aField m :=
  BitVec.extractLsb'_and

theorem dField_and (v m : Word) : dField (v &&& m) = dField v &&& dField m :=
  BitVec.extractLsb'_and

theorem zField_and (v m : Word) : zField (v &&& m) = zField v &&& zField m :=
  BitVec.extractLsb'_and

/-- A row fixes at least the bits R87 speaks of, at legal values. -/
def TableRow.ChecksFields (r : TableRow) : Prop :=
  opField r.mask = 0xFF ∧ (opField r.pattern).toNat < 0x10 ∧
  zField r.mask = 0xFF ∧ zField r.pattern = 0 ∧
  ((opField r.pattern).toNat ∈ zeroA → aField r.mask = 0xFF ∧ aField r.pattern = 0) ∧
  ((opField r.pattern).toNat ∈ zeroD → dField r.mask = 0xFF ∧ dField r.pattern = 0) ∧
  ((opField r.pattern).toNat ∈ [0x0B, 0x0D, 0x0E] →
    aField r.mask = 0xFF ∧ (aField r.pattern).toNat < 3) ∧
  ((opField r.pattern).toNat = 0x0A → dField r.mask = 0xFE ∧ dField r.pattern = 0) ∧
  ((opField r.pattern).toNat = 0x0D → dField r.mask = 0xE0 ∧ dField r.pattern = 0)

theorem opcodeTable_checksFields : ∀ r ∈ opcodeTable, r.ChecksFields := by
  unfold TableRow.ChecksFields
  decide

theorem filterByte_of_masked : ∀ d : Byte, d &&& 0xFE = 0 → d.toNat < 2 := by decide

theorem levelByte_of_masked : ∀ d : Byte, d &&& 0xE0 = 0 → d.toNat < 0x20 := by decide

theorem and_fullMask (v : Byte) : v &&& 0xFF = v := BitVec.and_allOnes

theorem legal_of_has {r : TableRow} {w : Word} (hr : r ∈ opcodeTable) (h : r.has w = true) :
    illegalWord w = false := by
  obtain ⟨hopMask, hopLt, hzMask, hzPat, hA, hD, hchannel, hfilter, hlevel⟩ :=
    opcodeTable_checksFields r hr
  rw [TableRow.has_iff] at h
  have hop : opField w &&& opField r.mask = opField r.pattern := by rw [← opField_and, h]
  have ha : aField w &&& aField r.mask = aField r.pattern := by rw [← aField_and, h]
  have hd : dField w &&& dField r.mask = dField r.pattern := by rw [← dField_and, h]
  have hz : zField w &&& zField r.mask = zField r.pattern := by rw [← zField_and, h]
  rw [hopMask, and_fullMask] at hop
  rw [hzMask, and_fullMask, hzPat] at hz
  rw [← hop] at hopLt hA hD hchannel hfilter hlevel
  rw [← Bool.not_eq_true, illegalWord_iff]
  rintro (hbad | hbad | ⟨hmem, hbad⟩ | ⟨hmem, hbad⟩ | ⟨hmem, hbad⟩ | ⟨hmem, hbad⟩ | ⟨hmem, hbad⟩)
  · omega
  · exact hbad (congrArg BitVec.toNat hz)
  · obtain ⟨hmask, hpat⟩ := hA hmem
    rw [hmask, and_fullMask, hpat] at ha
    exact hbad (congrArg BitVec.toNat ha)
  · obtain ⟨hmask, hpat⟩ := hD hmem
    rw [hmask, and_fullMask, hpat] at hd
    exact hbad (congrArg BitVec.toNat hd)
  · obtain ⟨hmask, hpat⟩ := hchannel hmem
    rw [hmask, and_fullMask] at ha
    rw [ha] at hbad
    omega
  · obtain ⟨hmask, hpat⟩ := hfilter hmem
    rw [hmask, hpat] at hd
    exact absurd (filterByte_of_masked _ hd) (Nat.not_lt.mpr hbad)
  · obtain ⟨hmask, hpat⟩ := hlevel hmem
    rw [hmask, hpat] at hd
    exact absurd (levelByte_of_masked _ hd) (Nat.not_lt.mpr hbad)

/-! ## The rows are disjoint -/

/-- Two rows conflict when both fix a bit, at different values. -/
def TableRow.Conflict (r r' : TableRow) : Prop :=
  r.pattern &&& r'.mask ≠ r'.pattern &&& r.mask

theorem opcodeTable_pairwise_conflict : opcodeTable.Pairwise TableRow.Conflict := by
  unfold TableRow.Conflict
  decide

theorem TableRow.Conflict.not_has_both {r r' : TableRow} {w : Word} (hc : r.Conflict r')
    (h : r.has w = true) (h' : r'.has w = true) : False := by
  rw [TableRow.has_iff] at h h'
  apply hc
  rw [← h, ← h', BitVec.and_assoc, BitVec.and_assoc, BitVec.and_comm r.mask]

theorem length_filter_has_le_one (w : Word) : (opcodeTable.filter (·.has w)).length ≤ 1 := by
  have hp := opcodeTable_pairwise_conflict.filter (·.has w)
  have hall : ∀ r ∈ opcodeTable.filter (·.has w), r.has w = true := fun r hr =>
    (List.mem_filter.mp hr).2
  generalize opcodeTable.filter (·.has w) = rows at hp hall ⊢
  match rows, hp, hall with
  | [], _, _ => exact Nat.zero_le _
  | [_], _, _ => exact Nat.le_refl _
  | r :: r' :: _, hp, hall =>
    have hc : r.Conflict r' := List.rel_of_pairwise_cons hp List.mem_cons_self
    exact (hc.not_has_both (hall r (by simp)) (hall r' (by simp))).elim

/-! ## The decoder's answer -/

theorem decode_illegal_iff (w : Word) (rest : List Word) :
    (∃ r, decode (w :: rest) = .reject (.illegal r)) ↔ illegalWord w = true := by
  have hd := decode_describes w rest
  constructor
  · rintro ⟨r, h⟩
    rwa [h] at hd
  · intro hbad
    cases h : decode (w :: rest) with
    | instr i rest' =>
      have hlegal := legal_of_has (tableRow_mem i) (tableRow_has_of_decode h)
      exact absurd (hlegal.symm.trans hbad) Bool.false_ne_true
    | reject r =>
      rw [h] at hd
      match r, hd with
      | .illegal r, _ => exact ⟨r, rfl⟩
      | .truncatedLoadregs, ⟨hw, _⟩ => exact absurd hbad (by rw [hw]; decide)

theorem decode_truncated_iff (w : Word) (rest : List Word) :
    decode (w :: rest) = .reject .truncatedLoadregs ↔ w = 0x08000000 ∧ rest.length < 4 := by
  constructor
  · intro h
    have hd := decode_describes w rest
    rwa [h] at hd
  · rintro ⟨rfl, hlt⟩
    have hframe : decode (0x08000000 :: rest) = decodeFrame rest := decode_opWord 0x08 0 0 rest
    rw [hframe]
    match rest, hlt with
    | [], _ | [_], _ | [_, _], _ | [_, _, _], _ => rfl

theorem decode_instr {w : Word} {rest : List Word} (hlegal : illegalWord w = false)
    (hlen : w = 0x08000000 → 4 ≤ rest.length) : ∃ i rest', decode (w :: rest) = .instr i rest' := by
  have hd := decode_describes w rest
  cases h : decode (w :: rest) with
  | instr i rest' => exact ⟨i, rest', rfl⟩
  | reject r =>
    rw [h] at hd
    match r, hd with
    | .illegal _, hbad => exact absurd (hlegal.symm.trans hbad) Bool.false_ne_true
    | .truncatedLoadregs, ⟨hw, hlt⟩ => exact absurd (hlen hw) (Nat.not_le.mpr hlt)

/-- Settles O3: every answer of the decoder describes its words, and the words of a decoded
operation are legal because they are in its row. -/
theorem decoderRejectsExactlyIllegalWords : Obligations.DecoderRejectsExactlyIllegalWords :=
  fun w rest => ⟨(decode_illegal_iff w rest).mpr, decode_instr,
    fun hw hlt => (decode_truncated_iff w rest).mpr ⟨hw, hlt⟩⟩

/-- Settles O4: a row's words are legal, a legal word is in the row of the operation it decodes to,
and no two rows share a word. -/
theorem legalWordsBelongToOneTableRow : Obligations.LegalWordsBelongToOneTableRow := by
  refine ⟨fun w => ?_, fun w rest i rest' h => ⟨tableRow_mem i, tableRow_has_of_decode h⟩⟩
  split
  next hbad =>
    rw [List.length_eq_zero_iff, List.filter_eq_nil_iff]
    intro r hr hhas
    exact absurd ((legal_of_has hr hhas).symm.trans hbad) Bool.false_ne_true
  next hlegal =>
    obtain ⟨i, rest', h⟩ := decode_instr (rest := [0, 0, 0, 0]) (Bool.not_eq_true _ ▸ hlegal)
      fun _ => Nat.le_refl 4
    have hmem : tableRow i ∈ opcodeTable.filter (·.has w) :=
      List.mem_filter.mpr ⟨tableRow_mem i, tableRow_has_of_decode h⟩
    exact Nat.le_antisymm (length_filter_has_le_one w) (List.length_pos_of_mem hmem)

end Sys2Proof
end

section
/-!
PROOFS. A step performs the decoded operation (spec/30_encoding.md R86, R95) and refuses exactly
what is no operation (R87; log 5, 9), and the run stays refused.
-/

namespace Sys2Proof.Machine

/-! ## The three cases of a step -/

theorem step_of_reject {s : State} {r : Reject} (hwf : s.cfg.wf = true) (hne : s.pending ≠ [])
    (h : decode s.pending = .reject r) : step s = .refused (.rejected r) := by
  simp only [step, hwf, if_true, if_neg hne, h]

theorem step_of_empty {s : State} (hwf : s.cfg.wf = true) (hp : s.pending = []) :
    step s = .next s := by
  simp only [step, hwf, if_true, hp]

/-- Settles O7: the three cases of a step. -/
theorem stepRunsTheDecodedOperation : Obligations.StepRunsTheDecodedOperation :=
  fun _ hwf => ⟨fun _ _ h => step_of_decode hwf h, fun _ hne h => step_of_reject hwf hne h,
    step_of_empty hwf⟩

/-! ## Refusals -/

theorem exec_completes (i : Instr) (s : State) : ∃ t, exec i s = .next t := by
  cases i <;> exact ⟨_, rfl⟩

/-- With words issued, a step gives the decoder's reason and no other refusal. -/
theorem step_rejected_iff {s : State} {r : Reject} (hwf : s.cfg.wf = true) (hne : s.pending ≠ []) :
    step s = .refused (.rejected r) ↔ decode s.pending = .reject r := by
  refine ⟨fun h => ?_, step_of_reject hwf hne⟩
  cases hd : decode s.pending with
  | instr i rest =>
    obtain ⟨t, ht⟩ := exec_completes i { s with pending := rest }
    rw [step_of_decode hwf hd, ht] at h
    cases h
  | reject r' =>
    rw [step_of_reject hwf hne hd] at h
    cases h
    rfl

theorem run_of_refused {s : State} {r : Refusal} (h : step s = .refused r) (n : Nat) :
    Host.Core.run core (n + 1) s = .refused r := by
  have hstep : core.step s = .refused r := h
  simp only [Host.Core.run, hstep]

/-- Settles O13: a step refuses for the decoder's reason and no other, and `decode_illegal_iff` and
`decode_truncated_iff` say when the decoder has which. -/
theorem stepRefusesExactlyWhatIsNoOperation : Obligations.StepRefusesExactlyWhatIsNoOperation := by
  intro s w rest op a d z illegal hwf hp hop ha hd hz hillegal
  obtain rfl : op = (opField w).toNat := hop.trans (opField_toNat w).symm
  obtain rfl : a = (aField w).toNat := ha.trans (aField_toNat w).symm
  obtain rfl : d = (dField w).toNat := hd.trans (dField_toNat w).symm
  obtain rfl : z = (zField w).toNat := hz.trans (zField_toNat w).symm
  replace hillegal : illegal ↔ illegalWord w = true := hillegal.trans (illegalWord_iff w).symm
  have hne : s.pending ≠ [] := hp ▸ List.cons_ne_nil w rest
  have hrefused (r : Reject) :
      step s = .refused (.rejected r) ↔ decode (w :: rest) = .reject r :=
    hp ▸ step_rejected_iff hwf hne
  have hbad : (∃ r, step s = .refused (.rejected (.illegal r))) ↔ illegal := by
    simp only [hrefused, decode_illegal_iff, hillegal]
  have hshort : step s = .refused (.rejected .truncatedLoadregs) ↔
      w = 0x08000000 ∧ rest.length < 4 :=
    (hrefused _).trans (decode_truncated_iff w rest)
  refine ⟨hbad, hshort, fun hlegal hlen => ?_, fun h => ?_, fun hw hlt => ?_⟩
  · rw [hillegal, Bool.not_eq_true] at hlegal
    obtain ⟨i, rest', hdecode⟩ := decode_instr hlegal hlen
    rw [step_of_decode hwf (hp ▸ hdecode)]
    exact exec_completes i _
  · obtain ⟨r, hr⟩ := hbad.mpr h
    exact ⟨r, run_of_refused hr⟩
  · exact run_of_refused (hshort.mpr ⟨hw, hlt⟩)

end Sys2Proof.Machine
end

section
/-!
PROOFS. The examples of spec/30_encoding.md R91, the data words of LOADREGS (R83) and the
pseudo-instruction settone (R90).
-/

namespace Sys2Proof.Machine

/-- Settles O5: the encoder writes the ten operations as the words of R91, and the decoder meets
items 2, 1 and 4 of R87 on the other three. -/
theorem exampleWordsDecodeAsTheSpecSays : Obligations.ExampleWordsDecodeAsTheSpecSays :=
  ⟨decode_encode (i := .wrregR7 0x3E) [] rfl, decode_encode (i := .wrregR1 0x01) [] rfl,
    decode_encode (i := .latch 13) [] rfl, decode_encode (i := .wrdata 0x0E) [] rfl,
    decode_encode (i := .clock) [] rfl, decode_encode (i := .getsample) [] rfl,
    decode_encode (i := .setovrB 17) [] rfl, decode_encode (i := .setfilter true) [] rfl,
    decode_encode (i := .reset) [] rfl,
    decode_encode (i := .loadregs 0x03020100 0x07060504 0x0B0A0908 0x0F0E0D0C) [] rfl,
    rfl, rfl, rfl⟩

/-! ## The data words of LOADREGS (spec/30_encoding.md R83) -/

theorem wordByte_toNat (v : Word) (j : Nat) :
    (wordByte v j).toNat = v.toNat / 2 ^ (8 * j) % 256 := by
  rw [wordByte, BitVec.extractLsb'_toNat, Nat.shiftRight_eq_div_pow]

/-- `F[4k + j]` is byte `j` of word `k`. -/
theorem frameOfWords_getElem (v : Vector Word 4) (k j : Fin 4) (h : 4 * k.val + j.val < 16) :
    (frameOfWords v[0] v[1] v[2] v[3])[4 * k.val + j.val] = wordByte v[k] j := by
  match k, j with
  | 0, 0 | 0, 1 | 0, 2 | 0, 3 | 1, 0 | 1, 1 | 1, 2 | 1, 3
  | 2, 0 | 2, 1 | 2, 2 | 2, 3 | 3, 0 | 3, 1 | 3, 2 | 3, 3 => rfl

/-- Settles O6: LOADREGS decodes back whatever its data words are, and each frame byte is a byte of
a data word. -/
theorem loadregsDataWordsAreFrameBytes : Obligations.LoadregsDataWordsAreFrameBytes := by
  intro v rest
  refine ⟨decode_encode (i := .loadregs v[0] v[1] v[2] v[3]) rest rfl, fun k j => ?_⟩
  have h : 4 * k.val + j.val < 16 := by omega
  exact ⟨h, by rw [frameOfWords_getElem v k j h, wordByte_toNat]⟩

/-! ## settone (spec/30_encoding.md R90) -/

theorem tp_toNat (s : State) (ch : Channel) :
    (s.tp ch).toNat =
      256 * ((s.reg (coarseIndex ch)).toNat % 16) + (s.reg (fineIndex ch)).toNat := by
  have hlt := (s.reg (fineIndex ch)).isLt
  rw [State.tp, BitVec.toNat_append, BitVec.extractLsb'_toNat, Nat.shiftRight_zero,
    ← Nat.shiftLeft_add_eq_or_of_lt hlt, Nat.shiftLeft_eq]
  omega

/-- Every register after WRREG (R234). -/
theorem reg_latchedWrite (a d : Byte) (s : State) (j : Fin 16) :
    (latchedWrite a d s).reg j = if a.toNat = j then d &&& regMask[j] else s.reg j :=
  reg_writeReg a d (setLatch a s) j

theorem wrregOp_eq {a d : Nat} (ha : a < 256) (hd : d < 256) :
    wrregOp a d = some (decodeWrreg (BitVec.ofNat 8 a) (BitVec.ofNat 8 d)) :=
  if_pos ⟨ha, hd⟩

theorem exec_decodeWrreg (a d : Byte) (s : State) :
    exec (decodeWrreg a d) s = .next (latchedWrite a d s) := by
  obtain ⟨-, -, hexec⟩ := decodeWrreg_spec a d
  exact hexec s

/-- The two WRREG of settone (R90). -/
def settoneWrites (ch : Channel) (p : Nat) (s : State) : State :=
  latchedWrite (BitVec.ofNat 8 (2 * ch.index + 1)) (BitVec.ofNat 8 (p / 256))
    (latchedWrite (BitVec.ofNat 8 (2 * ch.index)) (BitVec.ofNat 8 (p % 256)) s)

theorem settoneWrites_fine (ch : Channel) (p : Nat) (s : State) :
    ((settoneWrites ch p s).reg (fineIndex ch)).toNat = p % 256 := by
  have hreg : (settoneWrites ch p s).reg (fineIndex ch) = BitVec.ofNat 8 (p % 256) &&& 0xFF := by
    cases ch <;> simp [settoneWrites, reg_latchedWrite, fineIndex, Channel.index, regMask]
  rw [hreg, and_fullMask, BitVec.toNat_ofNat, Nat.mod_mod]

theorem settoneWrites_coarse (ch : Channel) {p : Nat} (hp : p ≤ 4095) (s : State) :
    ((settoneWrites ch p s).reg (coarseIndex ch)).toNat = p / 256 := by
  have hreg : (settoneWrites ch p s).reg (coarseIndex ch) = BitVec.ofNat 8 (p / 256) &&& 0x0F := by
    cases ch <;> simp [settoneWrites, reg_latchedWrite, coarseIndex, Channel.index, regMask]
  have hmask : (BitVec.ofNat 8 (p / 256) &&& 0x0F).toNat = p / 256 % 2 ^ 8 % 2 ^ 4 := by
    rw [BitVec.toNat_and, BitVec.toNat_ofNat]
    exact Nat.and_two_pow_sub_one_eq_mod _ 4
  rw [hreg, hmask]
  omega

theorem settone_expand (ch : Channel) {p : Nat} (hp : p ≤ 4095) :
    (Pseudo.settone ch p).expand =
      some [decodeWrreg (BitVec.ofNat 8 (2 * ch.index)) (BitVec.ofNat 8 (p % 256)),
        decodeWrreg (BitVec.ofNat 8 (2 * ch.index + 1)) (BitVec.ofNat 8 (p / 256))] := by
  have hch : ch.index ≤ 2 := by cases ch <;> decide
  rw [Pseudo.expand, if_pos hp, wrregOp_eq (by omega) (by omega), wrregOp_eq (by omega) (by omega)]
  rfl

/-- Settles O33: after the two writes the fine register holds `p % 256`, the coarse one
`p / 256`. -/
theorem settoneSetsTheTonePeriod : Obligations.SettoneSetsTheTonePeriod := by
  intro ch p
  refine ⟨fun hp => ?_, fun hp => if_neg (Nat.not_le.mpr hp)⟩
  refine ⟨_, _, settone_expand ch hp, fun s =>
    ⟨_, settoneWrites ch p s, exec_decodeWrreg _ _ s, exec_decodeWrreg _ _ _, ?_⟩⟩
  rw [tp_toNat, settoneWrites_fine, settoneWrites_coarse ch hp]
  omega

end Sys2Proof.Machine
end

section
/-!
PROOFS. The tone generators (spec/40_tone.md): the counting and toggling of one tick (R110), the
toggles of a run of ticks (R114) and the deferred reset (R113).
-/

namespace Sys2Proof.Machine

/-! ## One tick (spec/40_tone.md R110) -/

/-- A counter that reaches its period restarts, and its edge field toggles. -/
theorem tick_tone_of_reached {s : State} {ch : Channel} (h : (s.tp ch).toNat ≤ s.tc.get ch + 1) :
    (tick s).tc.get ch = 0 ∧ fieldOf (tick s).te ch = fieldOf s.te ch ^^^ 0x1F := by
  rw [tick_tc, tick_te, toneTick_tc, toneTick_te, if_pos h, if_pos h]
  exact ⟨rfl, rfl⟩

/-- A counter short of its period counts up, and its edge field stays. -/
theorem tick_tone_of_short {s : State} {ch : Channel} (h : s.tc.get ch + 1 < (s.tp ch).toNat) :
    (tick s).tc.get ch = s.tc.get ch + 1 ∧ fieldOf (tick s).te ch = fieldOf s.te ch := by
  rw [tick_tc, tick_te, toneTick_tc, toneTick_te, if_neg (Nat.not_le.mpr h),
    if_neg (Nat.not_le.mpr h)]
  exact ⟨rfl, rfl⟩

/-- Settles O40: a counter reaches its period on a tick or it does not. -/
theorem toneTickCountsAndToggles : Obligations.ToneTickCountsAndToggles :=
  fun _ _ => ⟨tick_tone_of_reached, tick_tone_of_short⟩

/-! ## A run of ticks (spec/40_tone.md R114) -/

/-- Counting one further past the end of a round of `m` starts the next round. -/
theorem succ_mod_div_of_reached {n m : Nat} (hm : 0 < m) (h : m ≤ n % m + 1) :
    (n + 1) % m = 0 ∧ (n + 1) / m = n / m + 1 := by
  have hlt := Nat.mod_lt n hm
  have hround : m * (n / m + 1) = n + 1 := by
    have hn := Nat.mod_add_div n m
    rw [Nat.mul_add_one]
    omega
  exact ((Nat.div_mod_unique hm).mpr ⟨by omega, hm⟩).symm

/-- Counting one further inside a round of `m` stays in it. -/
theorem succ_mod_div_of_short {n m : Nat} (h : n % m + 1 < m) :
    (n + 1) % m = n % m + 1 ∧ (n + 1) / m = n / m := by
  have hn := Nat.mod_add_div n m
  exact ((Nat.div_mod_unique (Nat.zero_lt_of_lt h)).mpr ⟨by omega, h⟩).symm

/-- One toggle more makes an even number of toggles odd and an odd one even. -/
theorem edge_toggle_succ (f : Level) (q : Nat) :
    (if q % 2 = 1 then f ^^^ 0x1F else f) ^^^ 0x1F = if (q + 1) % 2 = 1 then f ^^^ 0x1F else f := by
  by_cases hodd : q % 2 = 1
  · rw [if_pos hodd, if_neg (by omega), BitVec.xor_assoc, BitVec.xor_self, BitVec.xor_zero]
  · rw [if_neg hodd, if_pos (by omega)]

theorem tick_iterate_tp (n : Nat) (s : State) (ch : Channel) : (tick^[n] s).tp ch = s.tp ch :=
  State.tp_congr (tick_iterate_regs n s) ch

/-- Settles O45, by induction on the number of ticks: the counter is the number of ticks modulo
max(TP, 1), the toggles made are its quotient, and one tick more takes both one further. -/
theorem toneTogglesOncePerPeriod : Obligations.ToneTogglesOncePerPeriod := by
  intro s ch n hzero
  have hm : 0 < max (s.tp ch).toNat 1 := by omega
  induction n with
  | zero => simpa using hzero
  | succ n ih =>
    obtain ⟨htc, hte⟩ := ih
    have htp := tick_iterate_tp n s ch
    rw [Function.iterate_succ_apply']
    by_cases hreach : max (s.tp ch).toNat 1 ≤ n % max (s.tp ch).toNat 1 + 1
    case pos =>
      obtain ⟨hmod, hdiv⟩ := succ_mod_div_of_reached hm hreach
      obtain ⟨htc', hte'⟩ := tick_tone_of_reached (s := tick^[n] s) (ch := ch) (by rw [htp, htc]; omega)
      rw [htc', hte', hte, hmod, hdiv, edge_toggle_succ]
      exact ⟨rfl, rfl⟩
    case neg =>
      obtain ⟨hmod, hdiv⟩ := succ_mod_div_of_short (Nat.not_le.mp hreach)
      obtain ⟨htc', hte'⟩ := tick_tone_of_short (s := tick^[n] s) (ch := ch) (by rw [htp, htc]; omega)
      rw [htc', hte', htc, hte, hmod, hdiv]
      exact ⟨rfl, rfl⟩

/-! ## The deferred reset (spec/40_tone.md R113) -/

/-- A host update leaves the deferred-reset flags alone, or requests a tone reset. -/
theorem hostUpdate_tr {s t : State} (h : HostUpdate s t) :
    t.tr = s.tr ∨ ∃ ch, t.tr = s.tr.set ch true := by
  cases h with
  | toneReset ch => exact .inr ⟨ch, rfl⟩
  | keep | latch | handBack | filter | envRestart | override => exact .inl rfl
  | write | latchedWrite | load | read | latchedRead => exact .inl (by simp)

/-- CLOCK resolves every deferred reset before its first tick, and no tick requests one. -/
theorem clockSample_tr (s : State) (ch : Channel) : (clockSample s).tr.get ch = false := by
  have htr : (clockSample s).tr = (resolveToneResets s).tr := by simp [clockSample]
  rw [htr, resolveToneResets_tr]

/-- Settles O19: a host update sets flags and clears none. -/
theorem deferredToneResetWaitsForClock : Obligations.DeferredToneResetWaitsForClock := by
  refine ⟨fun i s t ch hclock hreset h hpending => ?_, fun s t ch h => ?_⟩
  · obtain htr | ⟨ch', htr⟩ := hostUpdate_tr (hostUpdate_of_exec hclock hreset h)
    · rwa [htr]
    · rw [htr, PerChannel.get_set, hpending, ite_self]
  · obtain rfl : clockSample s = t := Host.Outcome.next.inj h
    exact clockSample_tr s ch

end Sys2Proof.Machine
end

section
/-!
PROOFS. The noise generator (spec/41_noise.md): one tick (R130, R131), the shifts of a run of ticks
(R135) and the period of the LFSR (R132).
-/

namespace Sys2Proof.Machine

/-! ## One tick (spec/41_noise.md R130, R131) -/

/-- The idle half: the parity falls and the rest of the generator stays. -/
theorem tick_noise_of_idle {s : State} (hnh : s.nh = true) :
    (tick s).nh = false ∧ (tick s).nc = s.nc ∧ (tick s).lfsr = s.lfsr ∧ (tick s).nm = s.nm := by
  have hstep : noiseTick s = { s with nh := false } := by simp only [noiseTick, if_pos hnh]
  simp only [tick_nh, tick_nc, tick_lfsr, tick_nm, hstep, and_self]

/-- The active half, the counter at its period: the LFSR shifts, its ejected bit is the mask. -/
theorem tick_noise_of_reached {s : State} (hnh : s.nh = false) (h : max s.np.toNat 1 ≤ s.nc + 1) :
    (tick s).nh = true ∧ (tick s).nc = 0 ∧ (tick s).lfsr = lfsrStep s.lfsr ∧
    (tick s).nm = noiseMaskOf (s.lfsr.getLsbD 0) := by
  have hstep : noiseTick s = { s with
      nh := true, lfsr := lfsrStep s.lfsr, nm := noiseMaskOf (s.lfsr.getLsbD 0), nc := 0 } := by
    simp only [noiseTick, hnh, Bool.false_eq_true, if_false, if_pos h]
  simp only [tick_nh, tick_nc, tick_lfsr, tick_nm, hstep, and_self]

/-- The active half, the counter short of its period: it counts up. -/
theorem tick_noise_of_short {s : State} (hnh : s.nh = false) (h : s.nc + 1 < max s.np.toNat 1) :
    (tick s).nh = true ∧ (tick s).nc = s.nc + 1 ∧ (tick s).lfsr = s.lfsr ∧ (tick s).nm = s.nm := by
  have hstep : noiseTick s = { s with nh := true, nc := s.nc + 1 } := by
    simp only [noiseTick, hnh, Bool.false_eq_true, if_false, if_neg (Nat.not_le.mpr h)]
  simp only [tick_nh, tick_nc, tick_lfsr, tick_nm, hstep, and_self]

/-- Settles O41: a tick is idle or active, and on the active half the counter reaches its period or
falls short of it. -/
theorem noiseTickShiftsOnTheActiveHalf : Obligations.NoiseTickShiftsOnTheActiveHalf := by
  refine fun s => ⟨tick_noise_of_idle, fun hnh => ⟨?_, fun h => ?_, fun h => ?_⟩⟩
  · obtain h | h := Nat.lt_or_ge (s.nc + 1) (max s.np.toNat 1)
    · exact (tick_noise_of_short hnh h).1
    · exact (tick_noise_of_reached hnh h).1
  · exact (tick_noise_of_reached hnh h).2
  · exact (tick_noise_of_short hnh h).2

/-! ## A run of ticks (spec/41_noise.md R135) -/

theorem tick_iterate_np (n : Nat) (s : State) : (tick^[n] s).np = s.np :=
  State.np_congr (tick_iterate_regs n s)

/-- Settles O46, by induction on the number of ticks: (n + 1) / 2 of the first n ticks are active,
the counter is their number modulo max(NP, 1) and the shifts made are its quotient; an active tick
takes both one further and an idle one neither. -/
theorem noiseShiftsOncePerTwoPeriods : Obligations.NoiseShiftsOncePerTwoPeriods := by
  intro s n hnc hnh
  have hm : 0 < max s.np.toNat 1 := by omega
  induction n with
  | zero => simp [hnc, hnh]
  | succ n ih =>
    obtain ⟨ihl, ihc, ihp⟩ := ih
    have hnp := tick_iterate_np n s
    rw [Function.iterate_succ_apply']
    by_cases hodd : n % 2 = 1
    case pos =>
      obtain ⟨hp, hc, hl, -⟩ := tick_noise_of_idle (s := tick^[n] s) (by simp [ihp, hodd])
      have hactive : (n + 1 + 1) / 2 = (n + 1) / 2 := by omega
      rw [hp, hc, hl, ihc, ihl, hactive]
      exact ⟨rfl, rfl, (decide_eq_false (by omega)).symm⟩
    case neg =>
      have hidle : (tick^[n] s).nh = false := by simp [ihp, hodd]
      have hactive : (n + 1 + 1) / 2 = (n + 1) / 2 + 1 := by omega
      have hparity : true = decide ((n + 1) % 2 = 1) := (decide_eq_true (by omega)).symm
      rw [hactive]
      by_cases hreach : max s.np.toNat 1 ≤ (n + 1) / 2 % max s.np.toNat 1 + 1
      case pos =>
        obtain ⟨hmod, hdiv⟩ := succ_mod_div_of_reached hm hreach
        obtain ⟨hp, hc, hl, -⟩ := tick_noise_of_reached hidle (by rwa [hnp, ihc])
        rw [hp, hc, hl, ihl, hmod, hdiv, Function.iterate_succ_apply']
        exact ⟨rfl, rfl, hparity⟩
      case neg =>
        have hshort := Nat.not_le.mp hreach
        obtain ⟨hmod, hdiv⟩ := succ_mod_div_of_short hshort
        obtain ⟨hp, hc, hl, -⟩ := tick_noise_of_short hidle (by rwa [hnp, ihc])
        rw [hp, hc, hl, ihc, ihl, hmod, hdiv]
        exact ⟨rfl, rfl, hparity⟩

/-! ## The LFSR as a linear map over GF(2) (spec/41_noise.md R132) -/

theorem lfsrStep_eq (v : BitVec 17) :
    lfsrStep v = (v >>> 1) ^^^ (if v.getLsbD 0 then 0x12000#17 else 0#17) := rfl

@[simp] theorem lfsrStep_zero : lfsrStep 0#17 = 0#17 := rfl

theorem lfsrStep_xor (v w : BitVec 17) : lfsrStep (v ^^^ w) = lfsrStep v ^^^ lfsrStep w := by
  have hfeedback : ∀ a b : Bool, (if a ^^ b then 0x12000#17 else 0#17) =
      (if a then 0x12000#17 else 0#17) ^^^ (if b then 0x12000#17 else 0#17) := by decide
  rw [lfsrStep_eq, lfsrStep_eq, lfsrStep_eq,
    BitVec.ushiftRight_xor_distrib, BitVec.getLsbD_xor, hfeedback]
  ac_rfl

/-- The kernel is zero (`lfsrStep_ne_zero`), so the shift loses nothing. -/
theorem lfsrStep_injective : Function.Injective lfsrStep := by
  intro v w h
  by_contra hne
  apply lfsrStep_ne_zero (v := v ^^^ w) (by simpa using hne)
  rw [lfsrStep_xor, h]
  exact BitVec.xor_self

/-- Horner's scheme: the polynomial in the shift whose coefficients are the low `n` bits of `v`,
bit 0 the leading one, applied to `w`. -/
def lfsrHorner (v w : BitVec 17) : Nat → BitVec 17
  | 0 => 0#17
  | n + 1 => lfsrStep (lfsrHorner v w n) ^^^ (if v.getLsbD n then w else 0#17)

/-- The product of two LFSR states as polynomials modulo x^17 + x^3 + 1: bit 16 is the coefficient
of 1, and the shift multiplies by x. -/
def lfsrMul (v w : BitVec 17) : BitVec 17 := lfsrHorner v w 17

theorem lfsrHorner_lfsrStep (v w : BitVec 17) (n : Nat) :
    lfsrHorner v (lfsrStep w) n = lfsrStep (lfsrHorner v w n) := by
  induction n with
  | zero => simp [lfsrHorner]
  | succ n ih => rw [lfsrHorner, lfsrHorner, lfsrStep_xor, ih, apply_ite lfsrStep, lfsrStep_zero]

theorem lfsrHorner_xor (v w w' : BitVec 17) (n : Nat) :
    lfsrHorner v (w ^^^ w') n = lfsrHorner v w n ^^^ lfsrHorner v w' n := by
  induction n with
  | zero => simp [lfsrHorner]
  | succ n ih =>
    simp only [lfsrHorner, ih, lfsrStep_xor]
    split
    · ac_rfl
    · rw [BitVec.xor_zero, BitVec.xor_zero, BitVec.xor_zero]

/-- A shift of a state whose bit 0 is 0 has no feedback. -/
theorem lfsrStep_of_even {v : BitVec 17} (h : v.getLsbD 0 = false) : lfsrStep v = v >>> 1 := by
  rw [lfsrStep_eq, h]
  exact BitVec.xor_zero

/-- What a shift to the right empties, bit 16, a new coefficient fills. -/
theorem shiftLeft_ushiftRight_xor (v : BitVec 17) {n : Nat} (hn : n < 17) :
    (v <<< (17 - n)) >>> 1 ^^^ (if v.getLsbD n then 0x10000#17 else 0#17) =
      v <<< (17 - (n + 1)) := by
  apply BitVec.eq_of_getLsbD_eq
  intro j hj
  have hnew : (if v.getLsbD n then 0x10000#17 else 0#17).getLsbD j =
      (decide (16 = j) && v.getLsbD n) := by
    cases v.getLsbD n
    case false => simp
    case true => exact (BitVec.getLsbD_twoPow 16 j).trans (by simp)
  rw [BitVec.getLsbD_xor, hnew, BitVec.getLsbD_ushiftRight, BitVec.getLsbD_shiftLeft,
    BitVec.getLsbD_shiftLeft]
  obtain rfl | hne := eq_or_ne 16 j
  case inl =>
    have hindex : 16 - (16 - n) = n := by omega
    simp [hindex]
  case inr =>
    have hindex : 1 + j - (17 - n) = j - (17 - (n + 1)) := by omega
    have hlow : 1 + j < 17 - n ↔ j < 17 - (n + 1) := by omega
    have hin : 1 + j < 17 := by omega
    simp [hindex, hlow, hin, hj, hne]

/-- While bit 0 is 0 the shift is plain, so the scheme on the polynomial 1 lines the low `n` bits of
`v` up at the top. -/
theorem lfsrHorner_one (v : BitVec 17) {n : Nat} (hn : n ≤ 17) :
    lfsrHorner v 0x10000#17 n = v <<< (17 - n) := by
  induction n with
  | zero => rw [lfsrHorner, BitVec.shiftLeft_eq_zero le_rfl]
  | succ n ih =>
    have hshift : 0 < 17 - n := by omega
    have heven : (v <<< (17 - n)).getLsbD 0 = false := by simp [hshift]
    rw [lfsrHorner, ih (by omega), lfsrStep_of_even heven, shiftLeft_ushiftRight_xor v hn]

theorem lfsrMul_one (v : BitVec 17) : lfsrMul v 0x10000#17 = v := by
  rw [lfsrMul, lfsrHorner_one v le_rfl, Nat.sub_self, BitVec.shiftLeft_zero]

theorem lfsrMul_xor (v w w' : BitVec 17) : lfsrMul v (w ^^^ w') = lfsrMul v w ^^^ lfsrMul v w' :=
  lfsrHorner_xor v w w' 17

theorem lfsrMul_iterate (v w : BitVec 17) (n : Nat) :
    lfsrMul v (lfsrStep^[n] w) = lfsrStep^[n] (lfsrMul v w) :=
  Function.Commute.iterate_right (f := lfsrMul v) (fun w => lfsrHorner_lfsrStep v w 17) n w

/-- `n` shifts multiply by x^n, what `n` shifts make of the polynomial 1. -/
theorem lfsrStep_iterate_eq_mul (n : Nat) (v : BitVec 17) :
    lfsrStep^[n] v = lfsrMul v (lfsrStep^[n] 0x10000#17) := by
  rw [lfsrMul_iterate, lfsrMul_one]

/-- The powers x^(2^k) for k ≤ 17, each the square of the one before. -/
def lfsrSquares (k : Nat) : BitVec 17 :=
  [0x08000#17, 0x04000#17, 0x01000#17, 0x00100#17, 0x00001#17, 0x09002#17, 0x04109#17, 0x08093#17,
    0x0424B#17, 0x0A49F#17, 0x046EF#17, 0x03DAB#17, 0x00CCA#17, 0x0B4C9#17, 0x06182#17, 0x08408#17,
    0x04080#17, 0x08000#17].getD k 0#17

theorem lfsrMul_lfsrSquares {k : Nat} (hk : k < 17) :
    lfsrMul (lfsrSquares k) (lfsrSquares k) = lfsrSquares (k + 1) := by
  interval_cases k <;> decide

theorem lfsrStep_iterate_two_pow {k : Nat} (hk : k ≤ 17) :
    lfsrStep^[2 ^ k] 0x10000#17 = lfsrSquares k := by
  induction k with
  | zero => rfl
  | succ k ih =>
    calc lfsrStep^[2 ^ (k + 1)] 0x10000#17
        = lfsrStep^[2 ^ k] (lfsrStep^[2 ^ k] 0x10000#17) := by
          rw [← Function.iterate_add_apply, pow_succ, mul_two]
      _ = lfsrMul (lfsrSquares k) (lfsrSquares k) := by
          rw [lfsrStep_iterate_eq_mul, ih (by omega)]
      _ = lfsrSquares (k + 1) := lfsrMul_lfsrSquares hk

/-- 2^17 shifts are one shift, since x^(2^17) = x. -/
theorem lfsrStep_iterate_two_pow_17 (v : BitVec 17) : lfsrStep^[2 ^ 17] v = lfsrStep v :=
  have hone : lfsrStep^[2 ^ 17] 0x10000#17 = lfsrStep 0x10000#17 := lfsrStep_iterate_two_pow le_rfl
  calc lfsrStep^[2 ^ 17] v
      = lfsrMul v (lfsrStep^[2 ^ 17] 0x10000#17) := lfsrStep_iterate_eq_mul _ v
    _ = lfsrMul v (lfsrStep 0x10000#17) := by rw [hone]
    _ = lfsrStep v := (lfsrStep_iterate_eq_mul 1 v).symm

/-- 2^17 − 1 shifts are the identity, since one shift more is a shift, which is injective. -/
theorem lfsrStep_isPeriodicPt (v : BitVec 17) : Function.IsPeriodicPt lfsrStep 131071 v :=
  have hsucc := Function.iterate_succ_apply' lfsrStep 131071 v
  lfsrStep_injective (hsucc.symm.trans (lfsrStep_iterate_two_pow_17 v))

/-- x^17 = x^3 + 1: the feedback polynomial (spec/41_noise.md R132). -/
theorem lfsrStep_iterate_17 (v : BitVec 17) : lfsrStep^[17] v = lfsrStep^[3] v ^^^ v := by
  have hone : lfsrStep^[17] 0x10000#17 = lfsrStep^[3] 0x10000#17 ^^^ 0x10000#17 := by decide
  rw [lfsrStep_iterate_eq_mul, hone, lfsrMul_xor, lfsrMul_one, ← lfsrStep_iterate_eq_mul]

/-- A state the shift fixes is its own sum with itself by the feedback polynomial, so it is 0. -/
theorem not_isFixedPt_lfsrStep {v : BitVec 17} (hv : v ≠ 0) : ¬ Function.IsFixedPt lfsrStep v := by
  intro hfix
  have h := lfsrStep_iterate_17 v
  rw [(hfix.iterate 17).eq, (hfix.iterate 3).eq, BitVec.xor_self] at h
  exact hv h

/-- The least period divides 2^17 − 1, which is prime, and is not 1. -/
theorem minimalPeriod_lfsrStep {v : BitVec 17} (hv : v ≠ 0) :
    Function.minimalPeriod lfsrStep v = 131071 :=
  have : Fact (Nat.Prime 131071) := ⟨by norm_num⟩
  Function.minimalPeriod_eq_prime (lfsrStep_isPeriodicPt v) (not_isFixedPt_lfsrStep hv)

/-- Settles O47: 131071 is the least period of every non-zero state, `minimalPeriod_lfsrStep`. -/
theorem lfsrHasFullPeriod : Obligations.LfsrHasFullPeriod := by
  refine fun v hv => ⟨lfsrStep_isPeriodicPt v, fun k hpos hlt => ?_⟩
  rw [← minimalPeriod_lfsrStep hv] at hlt
  exact Function.not_isPeriodicPt_of_pos_of_lt_minimalPeriod hpos.ne' hlt

end Sys2Proof.Machine
end

section
/-!
PROOFS. The envelope generator (spec/42_envelope.md): one tick (R150), the position a run of ticks
reaches from a restart (R155, R158), the operations that restart it (R154) and the shapes its table
draws (R151 to R153).
-/

namespace Sys2Proof.Machine

/-! ## One tick (spec/42_envelope.md R150) -/

theorem wrapPos_of_nonpos {p : Int} (h : p ≤ 0) : wrapPos p = p := if_neg (Int.not_lt.mpr h)

theorem wrapPos_of_pos {p : Int} (h : 0 < p) : wrapPos p = p % 64 := if_pos h

/-- A counter that reaches its period restarts, and the position advances. -/
theorem tick_env_of_reached {s : State} (h : s.ep.toNat ≤ s.ec + 1) :
    (tick s).ec = 0 ∧ (tick s).epos = wrapPos (s.epos + 1) := by
  have hstep : envTick s = { s with ec := 0, epos := wrapPos (s.epos + 1) } := if_pos h
  rw [tick_ec, tick_epos, hstep]
  exact ⟨rfl, rfl⟩

/-- A counter short of its period counts up, and the position stays. -/
theorem tick_env_of_short {s : State} (h : s.ec + 1 < s.ep.toNat) :
    (tick s).ec = s.ec + 1 ∧ (tick s).epos = s.epos := by
  have hstep : envTick s = { s with ec := s.ec + 1 } := if_neg (Nat.not_le.mpr h)
  rw [tick_ec, tick_epos, hstep]
  exact ⟨rfl, rfl⟩

/-- Settles O42: the counter reaches its period on a tick or it does not, and the wrap is the
remainder of the position by 64. -/
theorem envelopeTickAdvancesAndWraps : Obligations.EnvelopeTickAdvancesAndWraps := by
  refine fun s => ⟨fun hreach => ?_, tick_env_of_short⟩
  obtain ⟨hec, hepos⟩ := tick_env_of_reached hreach
  rw [hepos]
  refine ⟨hec, wrapPos_of_nonpos, fun hpos => ⟨(s.epos + 1) / 64, ?_⟩⟩
  rw [wrapPos_of_pos hpos]
  omega

/-! ## A run of ticks from a restart (spec/42_envelope.md R155, R158) -/

/-- The position `k` steps after a restart: blocks 0 and 1 once, then blocks 2 and 3 again and again
(R158, `idx(k)` less 64). -/
def envPosition (k : Nat) : Int := if k < 64 then (k : Int) - 64 else ((k - 64) % 64 : Nat)

/-- One step takes each position to the next one: past -1 to 0, and past 63 back to 0 (R150). -/
theorem wrapPos_envPosition_succ (k : Nat) : wrapPos (envPosition k + 1) = envPosition (k + 1) := by
  unfold envPosition
  obtain hlt | hge := Nat.lt_or_ge k 64
  · rw [if_pos hlt, wrapPos_of_nonpos (by omega)]
    split <;> omega
  · rw [if_neg (Nat.not_lt.mpr hge), if_neg (by omega), wrapPos_of_pos (by omega)]
    omega

theorem tick_iterate_ep (n : Nat) (s : State) : (tick^[n] s).ep = s.ep :=
  State.ep_congr (tick_iterate_regs n s)

/-- Settles O48, by induction on the number of ticks: the counter is the number of ticks modulo
max(EP, 1), the steps made are its quotient, and one tick more takes both one further. -/
theorem envelopePlaysOnceThenLoops : Obligations.EnvelopePlaysOnceThenLoops := by
  intro s n hepos hec
  have hm : 0 < max s.ep.toNat 1 := by omega
  change _ ∧ (tick^[n] s).epos = envPosition (n / max s.ep.toNat 1)
  induction n with
  | zero => simpa [envPosition] using ⟨hec, hepos⟩
  | succ n ih =>
    obtain ⟨ihc, ihp⟩ := ih
    have hep := tick_iterate_ep n s
    rw [Function.iterate_succ_apply']
    by_cases hreach : max s.ep.toNat 1 ≤ n % max s.ep.toNat 1 + 1
    case pos =>
      obtain ⟨hmod, hdiv⟩ := succ_mod_div_of_reached hm hreach
      obtain ⟨hc, hp⟩ := tick_env_of_reached (s := tick^[n] s) (by rw [hep, ihc]; omega)
      rw [hc, hp, ihp, hmod, hdiv, wrapPos_envPosition_succ]
      exact ⟨rfl, rfl⟩
    case neg =>
      obtain ⟨hmod, hdiv⟩ := succ_mod_div_of_short (Nat.not_le.mp hreach)
      obtain ⟨hc, hp⟩ := tick_env_of_short (s := tick^[n] s) (by rw [hep, ihc]; omega)
      rw [hc, hp, ihc, ihp, hmod, hdiv]
      exact ⟨rfl, rfl⟩

/-! ## The operations that restart the envelope (spec/42_envelope.md R154) -/

/-- What a restart sets: `EPOS` and `EC` (R154). -/
def State.envelope (s : State) : Int × Nat := (s.epos, s.ec)

theorem envRestart_envelope (s : State) : (envRestart s).envelope = (-64, 0) := rfl

/-- A write to R[13] restarts the envelope, and a write to another address leaves it (R236, R245). -/
theorem writeReg_envelope (a d : Byte) (s : State) :
    (writeReg a d s).envelope = if a.toNat = 13 then (-64, 0) else s.envelope := by
  by_cases h : a.toNat < 16
  · rw [writeReg_of_lt h]
    by_cases hshape : a.toNat = 13
    · have hindex : (⟨a.toNat, h⟩ : Fin 16) = 13 := Fin.ext hshape
      rw [if_pos hshape, hindex, writeEffect_shape, envRestart_envelope]
    · rw [if_neg hshape, writeEffect_of_ne (Fin.ne_of_val_ne hshape)]
      rfl
  · rw [writeReg_of_ge (Nat.not_lt.mp h), if_neg (by omega)]

/-- WRREG leaves the envelope where its address is not that of the shape register (R234). -/
theorem latchedWrite_envelope_of_ne {a : Byte} (h : a.toNat ≠ 13) (d : Byte) (s : State) :
    (latchedWrite a d s).envelope = s.envelope :=
  (writeReg_envelope a d (setLatch a s)).trans (if_neg h)

/-- One step of LOADREGS restarts the envelope when it is byte 13 and not the sentinel (R250). -/
theorem loadReg_envelope (f : Vector Byte 16) (s : State) (i : Fin 16) :
    (loadReg f s i).envelope = if i = 13 ∧ f[13] ≠ 0xFF then (-64, 0) else s.envelope := by
  have haddr : (BitVec.ofNat 8 i.val).toNat = 13 ↔ i = 13 := by
    rw [BitVec.toNat_ofNat, Nat.mod_eq_of_lt (by omega), Fin.ext_iff]
    rfl
  simp only [loadReg, apply_ite State.envelope, writeReg_envelope, haddr]
  by_cases hi : i = 13
  · subst hi
    by_cases hsentinel : f[13] = 0xFF <;> simp [hsentinel]
  · simp [hi]

/-- The loop of LOADREGS restarts the envelope once it has come to byte 13 (R250). -/
theorem foldl_loadReg_envelope (f : Vector Byte 16) (is : List (Fin 16)) (s : State) :
    (is.foldl (loadReg f) s).envelope =
      if 13 ∈ is ∧ f[13] ≠ 0xFF then (-64, 0) else s.envelope := by
  induction is generalizing s with
  | nil => simp
  | cons i is ih =>
    rw [List.foldl_cons, ih, loadReg_envelope, ← ite_or]
    refine if_congr ?_ rfl rfl
    rw [List.mem_cons, eq_comm (a := (13 : Fin 16)), or_and_right, or_comm]

/-- LOADREGS restarts the envelope unless its byte 13 is the sentinel (R250). -/
theorem loadFrame_envelope (f : Vector Byte 16) (s : State) :
    (loadFrame f s).envelope = if f[13] ≠ 0xFF then (-64, 0) else s.envelope := by
  rw [loadFrame, foldl_loadReg_envelope]
  simp only [List.mem_finRange, true_and]

/-- The writers of R154: ENVTRIG, WRREG of R[13], WRDATA at `LATCH` 13, and LOADREGS without the
sentinel. -/
theorem envelope_of_exec {i : Instr} {s t : State} (hwf : i.wf = true) (hclock : i ≠ .clock)
    (hreset : i ≠ .reset) (h : exec i s = .next t) :
    t.envelope = s.envelope ∨ (t.envelope = (-64, 0) ∧
      (i = .envtrig ∨ (∃ d, i = .wrregR13 d) ∨ (∃ d, i = .wrdata d ∧ s.latch = 13) ∨
        (∃ v0 v1 v2 v3, i = .loadregs v0 v1 v2 v3 ∧ wordByte v3 1 ≠ 0xFF))) :=
  match i, h with
  | .clock, _ => absurd rfl hclock
  | .reset, _ => absurd rfl hreset
  | .envtrig, rfl => .inr ⟨envRestart_envelope s, .inl rfl⟩
  | .wrregR13 d, rfl => .inr ⟨writeReg_envelope 13 d (setLatch 13 s), .inr (.inl ⟨d, rfl⟩)⟩
  | .wrdata d, rfl => by
    have henv := writeReg_envelope s.latch d s
    split at henv
    case isTrue hlatch =>
      exact .inr ⟨henv, .inr (.inr (.inl ⟨d, rfl, BitVec.eq_of_toNat_eq hlatch⟩))⟩
    case isFalse => exact .inl henv
  | .loadregs v0 v1 v2 v3, rfl => by
    have henv := loadFrame_envelope (frameOfWords v0 v1 v2 v3) s
    split at henv
    case isTrue hbyte =>
      exact .inr ⟨henv, .inr (.inr (.inr ⟨v0, v1, v2, v3, rfl, hbyte⟩))⟩
    case isFalse => exact .inl henv
  | .wrregR0 d, rfl | .wrregR1 d, rfl | .wrregR2 d, rfl | .wrregR3 d, rfl | .wrregR4 d, rfl
  | .wrregR5 d, rfl | .wrregR6 d, rfl | .wrregR7 d, rfl | .wrregR8 d, rfl | .wrregR9 d, rfl
  | .wrregR10 d, rfl | .wrregR11 d, rfl | .wrregR12 d, rfl | .wrregR14 d, rfl
  | .wrregR15 d, rfl => .inl (latchedWrite_envelope_of_ne (by decide) d s)
  | .wrregOor128 a d, rfl | .wrregOor64 a d, rfl | .wrregOor32 a d, rfl | .wrregOor16 a d, rfl =>
    .inl (latchedWrite_envelope_of_ne (by
      simp only [Instr.wf, Bool.and_eq_true, decide_eq_true_eq] at hwf
      omega) d s)
  | .rddata, rfl | .rdreg _, rfl => .inl (by simp [State.envelope])
  | .latch _, rfl | .nop, rfl | .getsample, rfl | .dumpregs, rfl | .setfilter _, rfl
  | .toneresetA, rfl | .toneresetB, rfl | .toneresetC, rfl | .setovrA _, rfl | .setovrB _, rfl
  | .setovrC _, rfl | .clrovrA, rfl | .clrovrB, rfl | .clrovrC, rfl => .inl rfl

/-- Settles O16: what each operation does to the envelope, `envelope_of_exec`, field by field. -/
theorem envelopeRestartsOnlyByShapeWriteOrTrigger :
    Obligations.EnvelopeRestartsOnlyByShapeWriteOrTrigger := by
  intro i s t hwf hclock hreset h
  simpa only [State.envelope, Prod.mk.injEq, and_assoc] using envelope_of_exec hwf hclock hreset h

/-! ## The shapes of the table (spec/42_envelope.md R151 to R153) -/

/-- The kind of block `j` by the bits of the shape code (spec/10_state.md R24). -/
def shapeBlock (cont att alt hold : Bool) (j : Nat) : EnvBlock :=
  if j = 0 then (if att then .up else .dn)
  else if cont = false then .lo
  else if hold then (if att ≠ alt then .hi else .lo)
  else if att = (alt && decide (j % 2 = 1)) then .dn else .up

/-- The code map and the table give each of the sixteen codes the blocks its bits name. -/
theorem envBlock_shapePattern : ∀ (code : BitVec 4) (j : Fin 4),
    envBlock (shapePattern code) j =
      shapeBlock (code.getLsbD 3) (code.getLsbD 2) (code.getLsbD 1) (code.getLsbD 0) j := by
  decide

/-- Entry `ENV[128p + 32j + k]` is entry `k` of block `j` of pattern `p` (R152). -/
theorem envEntry_block (p : Nat) {j k : Nat} (hj : j < 4) (hk : k < 32) :
    envEntry (128 * p + 32 * j + k) = blockEntry (envBlock p j) k := by
  have hp : (128 * p + 32 * j + k) / 128 = p := by omega
  have hb : (128 * p + 32 * j + k) % 128 / 32 = j := by omega
  have he : (128 * p + 32 * j + k) % 32 = k := by omega
  rw [envEntry, hp, hb, he]

theorem shape_getLsbD (s : State) {b : Nat} (hb : b < 4) :
    s.shape.getLsbD b = (s.reg 13).getLsbD b := by
  simp [State.shape, hb]

/-- The level at entry `k` of block `j` is that of the block the shape bits name (R151). -/
theorem envLevel_eq_blockEntry {s : State} {j k : Nat} (hj : j < 4) (hk : k < 32)
    (hepos : s.epos = 32 * (j : Int) + (k : Int) - 64) :
    s.envLevel = blockEntry (shapeBlock ((s.reg 13).getLsbD 3) ((s.reg 13).getLsbD 2)
      ((s.reg 13).getLsbD 1) ((s.reg 13).getLsbD 0) j) k := by
  have hindex : ((s.eoff : Int) + s.epos + 64).toNat = 128 * shapePattern s.shape + 32 * j + k := by
    rw [hepos, State.eoff]
    omega
  have hblock := envBlock_shapePattern s.shape ⟨j, hj⟩
  simp (disch := decide) only [shape_getLsbD] at hblock
  rw [State.envLevel, hindex, envEntry_block _ hj hk, hblock]

theorem blockEntry_up_toNat {k : Nat} (hk : k < 32) : (blockEntry .up k).toNat = k :=
  Nat.mod_eq_of_lt hk

theorem blockEntry_dn_toNat (k : Nat) : (blockEntry .dn k).toNat = 31 - k :=
  Nat.mod_eq_of_lt (by omega)

theorem blockEntry_lo_toNat (k : Nat) : (blockEntry .lo k).toNat = 0 := rfl

theorem blockEntry_hi_toNat (k : Nat) : (blockEntry .hi k).toNat = 31 := rfl

/-- Settles O49: the level is entry `k` of the block the shape bits name, case by case of the block's
kind. -/
theorem envelopeTableDrawsTheShapeBits : Obligations.EnvelopeTableDrawsTheShapeBits := by
  rintro s j k _ _ _ _ hj hk hepos rfl rfl rfl rfl
  rw [envLevel_eq_blockEntry hj hk hepos, shapeBlock]
  simp only [apply_ite (blockEntry · k), apply_ite BitVec.toNat, blockEntry_up_toNat hk,
    blockEntry_dn_toNat, blockEntry_lo_toNat, blockEntry_hi_toNat]

end Sys2Proof.Machine
end

section
/-!
PROOFS. The mixer (spec/43_mixer_output.md): the gate mask of one tick (R180, R182), the gate of a
whole sample (R181), the levels (R183 to R187) and the mixed sum (R190).
-/

namespace Sys2Proof.Machine

/-! ## Gating on one tick (spec/43_mixer_output.md R180 to R182) -/

/-- Settles O43: the frame of a tick, its gate rule, and the enable masks read off the register
file, which a tick leaves. -/
theorem tickAccumulatesTheNewGateMask : Obligations.TickAccumulatesTheNewGateMask := by
  intro s
  have hmask : (tick s).gateMask = ((tick s).te ||| s.tem) &&& ((tick s).nm ||| s.nem) := by
    have hregs : (tick s).regs = s.regs := by simp only [tick_frame]
    rw [State.gateMask, State.tem_congr hregs, State.nem_congr hregs]
  rw [← hmask, ← tick_gate]
  have hframe := tick_frame s
  generalize tick s = t at hframe ⊢
  cases t
  simp only [State.mk.injEq] at hframe ⊢
  simp only [hframe, and_self]

theorem toneOff_eq_getLsbD (s : State) (ch : Channel) :
    s.toneOff ch = (s.reg 7).getLsbD ch.index := by
  cases ch <;> rfl

theorem noiseOff_eq_getLsbD (s : State) (ch : Channel) :
    s.noiseOff ch = (s.reg 7).getLsbD (3 + ch.index) := by
  cases ch <;> rfl

/-- The noise mask has the noise bit in every field (spec/41_noise.md R133). -/
theorem fieldOf_nm {v : Mask15} (h : v = 0x0000 ∨ v = 0x7FFF) (ch : Channel) :
    fieldOf v ch = if v = 0x7FFF then 0x1F else 0x00 := by
  obtain rfl | rfl := h
  · exact fieldOf_noiseMask false ch
  · exact fieldOf_noiseMask true ch

/-- One side of the gate, tone or noise, is open where it is disabled or high. -/
theorem edge_or_enable {f : Level} (h : f = 0x00 ∨ f = 0x1F) (off : Bool) :
    f ||| (if off then 0x1F else 0x00) = if off = true ∨ f = 0x1F then 0x1F else 0x00 := by
  obtain rfl | rfl := h <;> cases off <;> rfl

/-- Settles O44: the gate field is the AND of its tone side and its noise side. -/
theorem gateFollowsTheMixerBits : Obligations.GateFollowsTheMixerBits := by
  intro s ch hte hnm
  have hnoise : fieldOf s.nm ch = 0x00 ∨ fieldOf s.nm ch = 0x1F := by
    rw [fieldOf_nm hnm]
    exact (ite_eq_or_eq _ _ _).symm
  have hhigh : fieldOf s.nm ch = 0x1F ↔ s.nm = 0x7FFF := by
    rw [fieldOf_nm hnm]
    simp
  rw [State.gateMask, fieldOf_and, fieldOf_or, fieldOf_or, fieldOf_tem, fieldOf_nem,
    edge_or_enable hte, edge_or_enable hnoise, toneOff_eq_getLsbD, noiseOff_eq_getLsbD]
  simp only [hhigh, ite_and]
  split_ifs <;> rfl

/-! ## The gate of a sample (spec/43_mixer_output.md R181) -/

theorem fieldOf_gateMask_eq_or {s : State} {ch : Channel}
    (hte : fieldOf s.te ch = 0x00 ∨ fieldOf s.te ch = 0x1F) (hnm : s.nm = 0x0000 ∨ s.nm = 0x7FFF) :
    fieldOf s.gateMask ch = 0x00 ∨ fieldOf s.gateMask ch = 0x1F := by
  rw [gateFollowsTheMixerBits s ch hte hnm]
  exact (ite_eq_or_eq _ _ _).symm

theorem tick_te_eq_or {s : State} {ch : Channel}
    (h : fieldOf s.te ch = 0x00 ∨ fieldOf s.te ch = 0x1F) :
    fieldOf (tick s).te ch = 0x00 ∨ fieldOf (tick s).te ch = 0x1F := by
  rw [tick_te, toneTick_te]
  split
  · exact edge_toggle h
  · exact h

theorem tick_nm_eq_or {s : State} (h : s.nm = 0x0000 ∨ s.nm = 0x7FFF) :
    (tick s).nm = 0x0000 ∨ (tick s).nm = 0x7FFF := by
  rw [tick_nm, noiseTick]
  split
  · exact h
  · split
    · exact noiseMaskOf_eq _
    · exact h

/-- Every tick of a run finds the gate of a channel wholly open or wholly closed. -/
theorem tick_iterate_gateMask_eq_or {s : State} {ch : Channel}
    (hte : fieldOf s.te ch = 0x00 ∨ fieldOf s.te ch = 0x1F) (hnm : s.nm = 0x0000 ∨ s.nm = 0x7FFF)
    (n : Nat) :
    fieldOf (tick^[n] s).gateMask ch = 0x00 ∨ fieldOf (tick^[n] s).gateMask ch = 0x1F := by
  induction n generalizing s with
  | zero => exact fieldOf_gateMask_eq_or hte hnm
  | succ n ih => exact ih (tick_te_eq_or hte) (tick_nm_eq_or hnm)

/-- The OR of two fields, each all zeros or all ones, is again one, and full where either is. -/
theorem edge_or {f g : Level} (hf : f = 0x00 ∨ f = 0x1F) (hg : g = 0x00 ∨ g = 0x1F) :
    (f ||| g = 0x00 ∨ f ||| g = 0x1F) ∧ (f ||| g = 0x1F ↔ f = 0x1F ∨ g = 0x1F) := by
  obtain rfl | rfl := hf <;> obtain rfl | rfl := hg <;> decide

/-- One tick more takes its own gate mask into the gate of the sample. -/
theorem fieldOf_gate_tick_succ (s : State) (ch : Channel) (n : Nat) :
    fieldOf (tick^[n + 1] s).gate ch =
      fieldOf (tick^[n] s).gate ch ||| fieldOf (tick^[n + 1] s).gateMask ch := by
  rw [Function.iterate_succ_apply', tick_gate, fieldOf_or]

/-- Settles O58, by induction on the number of ticks: the gate is open after one tick more where it
was open before or the new tick opens it. -/
theorem gateIsOpenWhenAnyTickOpensIt : Obligations.GateIsOpenWhenAnyTickOpensIt := by
  refine ⟨fun s ch n hgate hte hnm => ?accumulates, tick_gate, fun s t h => ?clears⟩
  case clears =>
    obtain rfl : clockSample s = t := Host.Outcome.next.inj h
    rfl
  case accumulates =>
    induction n with
    | zero =>
      have hclosed : fieldOf s.gate ch = 0 := by rw [hgate]; exact fieldOf_zero ch
      refine ⟨.inl hclosed, fun hopen => ?_, fun ⟨m, hpos, hle, _⟩ => absurd hle (by omega)⟩
      exact absurd (hclosed.symm.trans hopen) (by decide)
    | succ n ih =>
      obtain ⟨hfield, hopen⟩ := ih
      obtain ⟨hfield', hopen'⟩ := edge_or hfield (tick_iterate_gateMask_eq_or (hte ch) hnm (n + 1))
      rw [← fieldOf_gate_tick_succ] at hfield' hopen'
      refine ⟨hfield', hopen'.trans ⟨?_, ?_⟩⟩
      · rintro (hold | hnew)
        · obtain ⟨m, hpos, hle, hm⟩ := hopen.mp hold
          exact ⟨m, hpos, Nat.le_succ_of_le hle, hm⟩
        · exact ⟨n + 1, Nat.succ_pos n, le_rfl, hnew⟩
      · rintro ⟨m, hpos, hle, hm⟩
        obtain hlt | rfl := Nat.lt_or_eq_of_le hle
        · exact .inl (hopen.mpr ⟨m, hpos, Nat.le_of_lt_succ hlt, hm⟩)
        · exact .inr hm

/-! ## Levels (spec/43_mixer_output.md R183 to R187) -/

theorem level5_of_override {s : State} {ch : Channel} {l : Level} (h : s.ovr.get ch = some l) :
    s.level5 ch = l := by
  rw [State.level5, h]

theorem level5_of_envelope {s : State} {ch : Channel} (h : s.ovr.get ch = none)
    (hmode : s.ampMode ch = true) : s.level5 ch = s.envLevel := by
  simp only [State.level5, h, hmode, if_true]

/-- The fixed level is shifted left by one (R184). -/
theorem level5_of_fixed {s : State} {ch : Channel} (h : s.ovr.get ch = none)
    (hmode : s.ampMode ch = false) :
    (s.level5 ch).toNat = 2 * ((s.reg (ampIndex ch)).toNat % 16) := by
  simp only [State.level5, h, hmode, Bool.false_eq_true, if_false, BitVec.toNat_append]
  simp [State.ampFixed, Nat.shiftLeft_eq, Nat.mul_comm]

theorem levelIndex_of_open {s : State} {ch : Channel} (h : fieldOf s.gate ch = 0x1F) :
    s.levelIndex ch = s.level5 ch := by
  rw [State.levelIndex, h]
  exact BitVec.and_allOnes

theorem levelIndex_of_closed {s : State} {ch : Channel} (h : fieldOf s.gate ch = 0x00) :
    s.levelIndex ch = 0 := by
  rw [State.levelIndex, h]
  exact BitVec.and_zero

/-- Settles O50: the three level sources, the two gate values, the two sides of the period bound. -/
theorem levelsAreSelectedGatedAndHalved : Obligations.LevelsAreSelectedGatedAndHalved := by
  refine fun s ch => ⟨fun _ => level5_of_override, level5_of_envelope, level5_of_fixed,
    fun l hl => ?_⟩
  have hindex : s.levelIndex ch = l := by
    obtain ⟨hopen, rfl⟩ | ⟨hclosed, rfl⟩ := hl
    · exact levelIndex_of_open hopen
    · exact levelIndex_of_closed hclosed
  rw [State.amplitude, hindex]
  exact ⟨fun h => if_neg (by omega), fun h => if_pos h⟩

/-- Settles O51: each of the three amplitudes is at most the largest table entry. -/
theorem mixedSumIsBounded : Obligations.MixedSumIsBounded := fun _ _ => mixedSum_le

end Sys2Proof.Machine
end

section
/-!
PROOFS. The output filters (spec/43_mixer_output.md): one sample of Mix (R189 to R195) and how the
DC removal fades a constant input out (R197).
-/

namespace Sys2Proof.Machine

/-! ## One sample (spec/43_mixer_output.md R191 to R195) -/

theorem fdiv_natCast_eq_floor (v : Int) (w : Nat) : Int.fdiv v w = ⌊(v : ℚ) / (w : ℚ)⌋ := by
  rw [Int.fdiv_eq_ediv_of_nonneg v (Int.natCast_nonneg w), Rat.floor_intCast_div_natCast]

/-- The DC-removed value of a sample `x` (R191). -/
theorem dcRemoved_dcUpdate (x : Nat) (s : State) :
    dcRemoved x (dcUpdate x s) =
      x - ⌊((s.dcs - (s.dch.getD s.dci 0 : Nat) + x : Int) : ℚ) / (s.cfg.dcWindow : ℚ)⌋ := by
  rw [dcRemoved, fdiv_natCast_eq_floor, dcUpdate_dcs]
  simp only [dcUpdate_frame]

/-- The filtered value of a sample whose DC-removed value is `y` (R192). -/
theorem firValue_eq_floor (y : Int) (s : State) :
    firValue y s = ⌊((s.fy2 : ℚ) + 2 * (s.fy1 : ℚ) + (y : ℚ)) / 4⌋ := by
  have h := fdiv_natCast_eq_floor (s.fy2 + 2 * s.fy1 + y) 4
  push_cast at h
  exact h

/-- Settles O52: with the two averages as `dcRemoved` and `firValue`, the statement is `mix` written
out. -/
theorem mixComputesOneSample : Obligations.MixComputesOneSample := by
  rintro s x sum y z rfl rfl rfl rfl
  rw [← State.mixedSum, ← dcRemoved_dcUpdate, ← firValue_eq_floor]
  rfl

/-! ## A constant input fades out (spec/43_mixer_output.md R197) -/

/-- Slots `i` and `j` of a ring of `w`, counted from slot `d`, are the same only for `i = j`. -/
theorem ring_slot_inj {w d i j : Nat} (hi : i < w) (hj : j < w) (h : (d + i) % w = (d + j) % w) :
    i = j := by
  have hmod : i % w = j % w := Nat.ModEq.add_left_cancel' d h
  rwa [Nat.mod_eq_of_lt hi, Nat.mod_eq_of_lt hj] at hmod

/-- The DC filter after `n` samples of a constant `k`, begun with an empty ring of `w` at slot `d`:
the slots from `d` on hold `k`, as many as there were samples, and the sum is theirs. -/
structure DcFilled (k w d n : Nat) (s : State) : Prop where
  window : s.cfg.dcWindow = w
  length : s.dch.length = w
  index : s.dci = (d + n) % w
  entry : ∀ j < w, s.dch.getD ((d + j) % w) 0 = if j < n then k else 0
  sum : s.dcs = (min n w * k : Nat)

/-- One sample more fills one slot more: the sample drops a 0 while the ring fills and a `k` once it
is full. -/
theorem dcFilled_dcUpdate {k w d n : Nat} {s : State} (hw : 0 < w) (h : DcFilled k w d n s) :
    DcFilled k w d (n + 1) (dcUpdate k s) := by
  obtain ⟨hwin, hlen, hidx, hentry, hsum⟩ := h
  have hlast := Nat.mod_lt n hw
  have hslot : s.dci = (d + n % w) % w := by rw [hidx, Nat.add_mod_mod]
  have hdropped : s.dch.getD s.dci 0 = if n < w then 0 else k := by
    rw [hslot, hentry _ hlast]
    obtain hn | hn := Nat.lt_or_ge n w
    · rw [Nat.mod_eq_of_lt hn, if_neg (Nat.lt_irrefl n), if_pos hn]
    · rw [if_pos (hlast.trans_le hn), if_neg (Nat.not_lt.mpr hn)]
  refine ⟨hwin, ?length, ?index, fun j hj => ?entry, ?sum⟩
  case length => rw [dcUpdate_dch, List.length_set, hlen]
  case index => rw [dcUpdate_dci, hwin, hidx, Nat.mod_add_mod, Nat.add_assoc]
  case entry =>
    rw [dcUpdate_dch, hslot]
    by_cases hj' : j = n % w
    · have hslot_lt : (d + n % w) % w < (s.dch.set ((d + n % w) % w) k).length := by
        rw [List.length_set, hlen]
        exact Nat.mod_lt _ hw
      have hle := Nat.mod_le n w
      rw [hj', List.getD_eq_getElem _ _ hslot_lt, List.getElem_set_self, if_pos (by omega)]
    · have hne : (d + n % w) % w ≠ (d + j) % w := fun e => hj' (ring_slot_inj hlast hj e).symm
      have hjn : j ≠ n := fun e => hj' (by rw [← e, Nat.mod_eq_of_lt hj])
      rw [List.getD_eq_getElem?_getD, List.getElem?_set_ne hne, ← List.getD_eq_getElem?_getD,
        hentry j hj]
      exact if_congr (by omega) rfl rfl
  case sum =>
    rw [dcUpdate_dcs, hdropped, hsum]
    obtain hn | hn := Nat.lt_or_ge n w
    · rw [if_pos hn, Nat.min_eq_left hn.le, Nat.min_eq_left hn, Nat.add_one_mul]
      omega
    · rw [if_neg (Nat.not_lt.mpr hn), Nat.min_eq_right hn, Nat.min_eq_right (by omega)]
      omega

theorem dcFilled_iterate {s : State} (hw : 1 ≤ s.cfg.dcWindow)
    (hring : s.dch = List.replicate s.cfg.dcWindow 0) (hidx : s.dci < s.cfg.dcWindow)
    (hsum : s.dcs = 0) (k n : Nat) :
    DcFilled k s.cfg.dcWindow s.dci n ((dcUpdate k)^[n] s) := by
  induction n with
  | zero =>
    exact {
      window := rfl
      length := by rw [Function.iterate_zero_apply, hring, List.length_replicate]
      index := (Nat.mod_eq_of_lt hidx).symm
      entry := fun j _ => by simp [hring]
      sum := by simpa using hsum }
  | succ n ih =>
    rw [Function.iterate_succ_apply']
    exact dcFilled_dcUpdate hw ih

/-- Settles O53: the sum the ring holds after `n` samples. -/
theorem constantInputFadesToZero : Obligations.ConstantInputFadesToZero := by
  intro s k n hw hring hidx hsum _
  have h := dcFilled_iterate hw hring hidx hsum k n
  rw [dcRemoved, h.sum, h.window, ← Int.ofNat_fdiv]

end Sys2Proof.Machine
end

section
/-!
PROOFS. The conversion to binary32 (spec/43_mixer_output.md R194): the value nearest to the
quotient, ties to even, and the ends of the range.
-/

namespace Sys2Proof.Machine

/-! ## Rounding to the nearest natural -/

/-- How far `m` lies from `n / d`, times `d`. -/
def roundError (n d m : Nat) : Nat := ((m * d : Nat) - (n : Nat) : Int).natAbs

/-- Where a multiple of `d` lies from `q * d` and the next one, one of which a rounding takes. -/
theorem mul_cases (m q d : Nat) :
    m * d + d ≤ q * d ∨ (m = q ∧ m * d = q * d) ∨ (m = q + 1 ∧ m * d = q * d + d) ∨
      q * d + 2 * d ≤ m * d := by
  obtain h | rfl | rfl | h : m + 1 ≤ q ∨ m = q ∨ m = q + 1 ∨ q + 2 ≤ m := by omega
  · exact .inl ((Nat.add_one_mul m d).symm.trans_le (Nat.mul_le_mul_right d h))
  · exact .inr (.inl ⟨rfl, rfl⟩)
  · exact .inr (.inr (.inl ⟨rfl, Nat.add_one_mul q d⟩))
  · exact .inr (.inr (.inr ((Nat.add_mul q 2 d).symm.trans_le (Nat.mul_le_mul_right d h))))

/-- No natural is nearer to `n / d` than `roundHalfEven n d`, which is even where another is as
near. -/
theorem roundHalfEven_nearest {n d : Nat} (hd : 0 < d) (m : Nat) :
    roundError n d (roundHalfEven n d) ≤ roundError n d m ∧
    (roundError n d (roundHalfEven n d) = roundError n d m → roundHalfEven n d ≠ m →
      roundHalfEven n d % 2 = 0) := by
  have hn : n / d * d + n % d = n := Nat.div_add_mod' n d
  have hr : n % d < d := Nat.mod_lt n hd
  have hup : (n / d + 1) * d = n / d * d + d := Nat.add_one_mul _ _
  have hm := mul_cases m (n / d) d
  unfold roundHalfEven roundError
  split_ifs with hdown hnext
  · omega
  · omega
  · obtain heven | hodd := Nat.mod_two_eq_zero_or_one (n / d)
    · rw [heven, Nat.add_zero]
      omega
    · rw [hodd]
      omega

theorem le_roundHalfEven {n d m : Nat} (hd : 0 < d) (h : m * d ≤ n) : m ≤ roundHalfEven n d := by
  have hm : m ≤ n / d := (Nat.le_div_iff_mul_le hd).mpr h
  unfold roundHalfEven
  split_ifs <;> omega

/-! ## The finite binary32 magnitudes, in units of 2^-149 -/

/-- The value of a significand `r` at exponent `e`. A significand of 2^24 carries into the exponent
field and keeps its value. -/
theorem binary32Units_mul_add {e r : Nat} (hr : r ≤ 2 ^ 24) (he : e = 0 ∨ 2 ^ 23 ≤ r) :
    binary32Units (e * 2 ^ 23 + r) = r * 2 ^ e := by
  unfold binary32Units
  obtain hsub | ⟨hlo, hhi⟩ | rfl : r < 2 ^ 23 ∨ (2 ^ 23 ≤ r ∧ r < 2 ^ 24) ∨ r = 2 ^ 24 := by omega
  case inl =>
    obtain rfl : e = 0 := by omega
    rw [if_pos (by omega)]
    omega
  case inr.inl =>
    have hexp : (e * 2 ^ 23 + r) / 2 ^ 23 = e + 1 := by omega
    have hsig : 2 ^ 23 + (e * 2 ^ 23 + r) % 2 ^ 23 = r := by omega
    rw [hexp, hsig, if_neg (Nat.succ_ne_zero e), Nat.add_sub_cancel]
  case inr.inr =>
    have hexp : (e * 2 ^ 23 + 2 ^ 24) / 2 ^ 23 = e + 2 := by omega
    have hsig : (e * 2 ^ 23 + 2 ^ 24) % 2 ^ 23 = 0 := by omega
    rw [hexp, hsig, if_neg (by omega), Nat.add_sub_assoc (by decide), pow_succ]
    ring

/-- Every magnitude is a significand at an exponent, below 2^23 at the least exponent only. -/
theorem exists_significand (b : Nat) :
    ∃ e r, b = e * 2 ^ 23 + r ∧ r < 2 ^ 24 ∧ (e = 0 ∨ 2 ^ 23 ≤ r) := by
  obtain h | h := Nat.lt_or_ge b (2 ^ 23)
  · exact ⟨0, b, by omega, by omega, .inl rfl⟩
  · exact ⟨b / 2 ^ 23 - 1, 2 ^ 23 + b % 2 ^ 23, by omega, by omega, .inr (by omega)⟩

/-- Greater bits are a greater magnitude. -/
theorem binary32Units_strictMono : StrictMono binary32Units := by
  refine strictMono_nat_of_lt_succ fun b => ?_
  obtain ⟨e, r, rfl, hr, he⟩ := exists_significand b
  rw [Nat.add_assoc, binary32Units_mul_add hr.le he, binary32Units_mul_add hr (by omega)]
  exact Nat.mul_lt_mul_of_pos_right (Nat.lt_succ_self r) (Nat.two_pow_pos e)

/-- From the least full significand at exponent `e` on, every magnitude is a multiple of `2^e`. -/
theorem two_pow_dvd_binary32Units {e b : Nat} (h : e = 0 ∨ (e + 1) * 2 ^ 23 ≤ b) :
    2 ^ e ∣ binary32Units b := by
  obtain rfl | h := h
  · exact one_dvd _
  · have he : e + 1 ≤ b / 2 ^ 23 := (Nat.le_div_iff_mul_le (by decide)).mpr h
    rw [binary32Units, if_neg (by omega)]
    exact Dvd.dvd.mul_left (pow_dvd_pow 2 (by omega)) _

/-! ## The exponent that `magnitudeBits` rounds at -/

/-- The exponent of the last bit of the result, in units of 2^-149. -/
def lastExponent (n d : Nat) : Nat := 126 - leadShift n d 126 0

/-- The numerator shifted so that the last bit of the result has the weight of `d`. -/
def scaledNumerator (n d : Nat) : Nat := n * 2 ^ (23 + leadShift n d 126 0)

theorem magnitudeBits_eq (n d : Nat) :
    magnitudeBits n d =
      lastExponent n d * 2 ^ 23 + roundHalfEven (scaledNumerator n d) d := rfl

/-- The quotient in units of 2^-149. -/
theorem scaledNumerator_mul (n d : Nat) :
    scaledNumerator n d * 2 ^ lastExponent n d = n * 2 ^ 149 := by
  obtain ⟨-, hle, -⟩ := leadShift_spec n d 126 0
  have hexp : 23 + leadShift n d 126 0 + (126 - leadShift n d 126 0) = 149 := by omega
  rw [scaledNumerator, lastExponent, Nat.mul_assoc, ← pow_add, hexp]

theorem scaledNumerator_le {n d : Nat} (h : n ≤ d) : scaledNumerator n d ≤ 2 ^ 24 * d := by
  obtain ⟨-, -, hpass⟩ := leadShift_spec n d 126 0
  unfold scaledNumerator
  generalize leadShift n d 126 0 = k at hpass ⊢
  cases k with
  | zero =>
    rw [Nat.mul_comm]
    exact Nat.mul_le_mul (by decide) h
  | succ j =>
    calc n * 2 ^ (23 + (j + 1)) = 2 ^ 24 * (n * 2 ^ j) := by ring
      _ ≤ 2 ^ 24 * d := Nat.mul_le_mul_left _ (hpass j (Nat.zero_le j) (Nat.lt_succ_self j)).le

/-- `leadShift` stops short of the last shift it looks at only where the shift is great enough. -/
theorem le_of_leadShift_lt {n d fuel k : Nat} (h : leadShift n d fuel k < k + fuel) :
    d ≤ n * 2 ^ leadShift n d fuel k := by
  induction fuel generalizing k with
  | zero => exact absurd h (Nat.lt_irrefl k)
  | succ fuel ih =>
    unfold leadShift at h ⊢
    split_ifs at h ⊢ with hle
    · exact hle
    · exact ih (by omega)

/-- Above the least exponent the significand is a full one. -/
theorem le_scaledNumerator {n d : Nat} (h : lastExponent n d ≠ 0) :
    2 ^ 23 * d ≤ scaledNumerator n d := by
  have hlt : leadShift n d 126 0 < 0 + 126 := by unfold lastExponent at h; omega
  calc 2 ^ 23 * d ≤ 2 ^ 23 * (n * 2 ^ leadShift n d 126 0) :=
        Nat.mul_le_mul_left _ (le_of_leadShift_lt hlt)
    _ = scaledNumerator n d := by rw [scaledNumerator, pow_add]; ring

theorem binary32Units_magnitudeBits {n d : Nat} (hd : 0 < d) (h : n ≤ d) :
    binary32Units (magnitudeBits n d) =
      roundHalfEven (scaledNumerator n d) d * 2 ^ lastExponent n d := by
  refine binary32Units_mul_add (roundHalfEven_le hd (scaledNumerator_le h)) ?_
  obtain he | he := eq_or_ne (lastExponent n d) 0
  · exact .inl he
  · exact .inr (le_roundHalfEven hd (le_scaledNumerator he))

/-! ## The nearest magnitude -/

/-- The error of a multiple of the last bit is its error as a significand. -/
theorem binary32Error_eq_mul {n d b m : Nat} (h : binary32Units b = m * 2 ^ lastExponent n d) :
    binary32Error n d b = roundError (scaledNumerator n d) d m * 2 ^ lastExponent n d := by
  rw [binary32Error, h, ← scaledNumerator_mul n d, Nat.mul_right_comm, Nat.cast_mul,
    Nat.cast_mul (scaledNumerator n d), ← Int.sub_mul, Int.natAbs_mul, Int.natAbs_natCast,
    roundError]

/-- A magnitude below the full significands at the last bit's exponent lies farther from the
quotient than the least of them does, since the quotient is not below that one. -/
theorem binary32Error_lt_of_below {n d b : Nat} (hd : 0 < d) (h : n ≤ d)
    (he : lastExponent n d ≠ 0) (hb : b < (lastExponent n d + 1) * 2 ^ 23) :
    binary32Error n d (magnitudeBits n d) < binary32Error n d b := by
  have hleast : binary32Units (lastExponent n d * 2 ^ 23 + 2 ^ 23) = 2 ^ 23 * 2 ^ lastExponent n d :=
    binary32Units_mul_add (by decide) (.inr le_rfl)
  have hfull := Nat.mul_le_mul_right (2 ^ lastExponent n d) (le_scaledNumerator he)
  rw [Nat.mul_right_comm, scaledNumerator_mul, ← hleast] at hfull
  have hbelow : binary32Units b * d < binary32Units (lastExponent n d * 2 ^ 23 + 2 ^ 23) * d :=
    Nat.mul_lt_mul_of_pos_right (binary32Units_strictMono (by omega)) hd
  calc binary32Error n d (magnitudeBits n d)
      ≤ binary32Error n d (lastExponent n d * 2 ^ 23 + 2 ^ 23) := by
        rw [binary32Error_eq_mul (binary32Units_magnitudeBits hd h), binary32Error_eq_mul hleast]
        exact Nat.mul_le_mul_right _ (roundHalfEven_nearest hd _).1
    _ < binary32Error n d b := by
        unfold binary32Error
        omega

/-- No magnitude is nearer to the quotient than `magnitudeBits`, which is even where another is as
near: a multiple of the last bit by the rounding of the significand, and any other lies below. -/
theorem magnitudeBits_nearest {n d : Nat} (hd : 0 < d) (h : n ≤ d) (b : Nat) :
    binary32Error n d (magnitudeBits n d) ≤ binary32Error n d b ∧
    (binary32Error n d (magnitudeBits n d) = binary32Error n d b → magnitudeBits n d ≠ b →
      magnitudeBits n d % 2 = 0) := by
  by_cases hb : lastExponent n d = 0 ∨ (lastExponent n d + 1) * 2 ^ 23 ≤ b
  case pos =>
    have hunits := binary32Units_magnitudeBits hd h
    obtain ⟨m, hm⟩ := two_pow_dvd_binary32Units hb
    rw [Nat.mul_comm] at hm
    obtain ⟨hle, htie⟩ := roundHalfEven_nearest (n := scaledNumerator n d) hd m
    rw [binary32Error_eq_mul hunits, binary32Error_eq_mul hm]
    refine ⟨Nat.mul_le_mul_right _ hle, fun heq hne => ?_⟩
    have hround : roundHalfEven (scaledNumerator n d) d ≠ m := by
      rintro rfl
      exact hne (binary32Units_strictMono.injective (hunits.trans hm.symm))
    have heven := htie (Nat.mul_right_cancel (Nat.two_pow_pos _) heq) hround
    rw [magnitudeBits_eq]
    omega
  case neg =>
    obtain ⟨he, hlt⟩ := not_or.mp hb
    have hfar := binary32Error_lt_of_below hd h he (Nat.not_le.mp hlt)
    exact ⟨hfar.le, fun heq => absurd heq hfar.ne⟩

/-! ## The sign (spec/43_mixer_output.md R194; log 14) -/

theorem binary32_of_nonneg {n : Int} {d : Nat} (hd : 0 < d) (hn : n.natAbs ≤ d) (h : 0 ≤ n) :
    (binary32 n d).toNat = magnitudeBits n.natAbs d := by
  have hm := magnitudeBits_le hd hn
  rw [binary32, if_pos h, BitVec.toNat_ofNat]
  omega

theorem binary32_of_neg {n : Int} {d : Nat} (hd : 0 < d) (hn : n.natAbs ≤ d) (h : n < 0)
    (hne : magnitudeBits n.natAbs d ≠ 0) :
    (binary32 n d).toNat = 2 ^ 31 + magnitudeBits n.natAbs d := by
  have hm := magnitudeBits_le hd hn
  rw [binary32, if_neg (Int.not_le.mpr h), if_neg hne, BitVec.toNat_ofNat]
  omega

/-- The sign bit apart, `binary32` gives the magnitude bits, whatever sign a zero takes. -/
theorem binary32_mod {n : Int} {d : Nat} (hd : 0 < d) (hn : n.natAbs ≤ d) :
    (binary32 n d).toNat % 2 ^ 31 = magnitudeBits n.natAbs d := by
  have hm := magnitudeBits_le hd hn
  obtain hneg | hpos := lt_or_ge n 0
  · obtain hzero | hne := eq_or_ne (magnitudeBits n.natAbs d) 0
    · rw [binary32, if_neg (Int.not_le.mpr hneg), if_pos hzero, hzero]
      split <;> rfl
    · rw [binary32_of_neg hd hn hneg hne]
      omega
  · rw [binary32_of_nonneg hd hn hpos]
    omega

/-! ## SAMPLE (spec/43_mixer_output.md R194) -/

theorem clampInt_natAbs_le (out : Int) (scale : Nat) :
    (clampInt out (-scale) scale).natAbs ≤ scale := by
  unfold clampInt
  omega

/-- Settles O54: the magnitude by `magnitudeBits_nearest`, the sign by the sign of the output. -/
theorem sampleIsTheNearestBinary32 : Obligations.SampleIsTheNearestBinary32 := by
  intro out scale hscale c b
  have hc : c.natAbs ≤ scale := clampInt_natAbs_le out scale
  have hb : b = magnitudeBits c.natAbs scale := binary32_mod hscale hc
  refine ⟨sampleOf_range out hscale, fun b' _ => ?nearest, fun hout => ?positive,
    fun hout hne => ?negative⟩
  case nearest =>
    rw [hb]
    exact magnitudeBits_nearest hscale hc b'
  case positive =>
    have hpos : 0 ≤ c := by unfold c clampInt; omega
    calc (sampleOf out scale).toNat
        = magnitudeBits c.natAbs scale := binary32_of_nonneg hscale hc hpos
      _ ≤ 0x3F800000 := magnitudeBits_le hscale hc
      _ < 2 ^ 31 := by decide
  case negative =>
    have hneg : c < 0 := by unfold c clampInt; omega
    calc 2 ^ 31 ≤ 2 ^ 31 + magnitudeBits c.natAbs scale := Nat.le_add_right _ _
      _ = (sampleOf out scale).toNat := (binary32_of_neg hscale hc hneg (hb ▸ hne)).symm

theorem magnitudeBits_zero {d : Nat} (hd : 0 < d) : magnitudeBits 0 d = 0 := by
  have hnum : scaledNumerator 0 d = 0 := Nat.zero_mul _
  have hexp : lastExponent 0 d = 0 := by
    by_contra hne
    have hfull := le_scaledNumerator hne
    omega
  have hround : roundHalfEven 0 d ≤ 0 := roundHalfEven_le hd (Nat.zero_le _)
  rw [magnitudeBits_eq, hnum, hexp]
  omega

/-- A quotient of 1 has the bits of 1.0. -/
theorem magnitudeBits_self {d : Nat} (hd : 0 < d) : magnitudeBits d d = 0x3F800000 := by
  have hshift : leadShift d d 126 0 = 0 := if_pos (Nat.le_mul_of_pos_right d (by decide))
  have hround : roundHalfEven (d * 2 ^ 23) d = 2 ^ 23 :=
    le_antisymm (roundHalfEven_le hd (Nat.mul_comm _ _).le)
      (le_roundHalfEven hd (Nat.mul_comm _ _).le)
  rw [magnitudeBits, hshift, hround]
  rfl

/-- Settles O55: the clamped quotient is 0, 1 or -1. -/
theorem sampleClampsAtFullScale : Obligations.SampleClampsAtFullScale := by
  intro out scale hscale
  refine ⟨fun hout => ?zero, fun hout => ?top, fun hout => ?bottom⟩
  case zero =>
    have hc : clampInt out (-scale) scale = 0 := by unfold clampInt; omega
    have hval := binary32_of_nonneg (n := 0) hscale (Nat.zero_le _) le_rfl
    rw [sampleOf, hc]
    exact BitVec.eq_of_toNat_eq (hval.trans (magnitudeBits_zero hscale))
  case top =>
    have hc : clampInt out (-scale) scale = scale := by unfold clampInt; omega
    have hval := binary32_of_nonneg (n := scale) hscale le_rfl (Int.natCast_nonneg scale)
    rw [sampleOf, hc]
    exact BitVec.eq_of_toNat_eq (hval.trans (magnitudeBits_self hscale))
  case bottom =>
    have hc : clampInt out (-scale) scale = -scale := by unfold clampInt; omega
    have hone : magnitudeBits (-scale : Int).natAbs scale = 0x3F800000 := by
      rw [Int.natAbs_neg]
      exact magnitudeBits_self hscale
    have hval := binary32_of_neg (n := -scale) hscale (Int.natAbs_neg scale).le (by omega)
      (by rw [hone]; decide)
    rw [hone] at hval
    rw [sampleOf, hc]
    exact BitVec.eq_of_toNat_eq hval

end Sys2Proof.Machine
end

section
/-!
PROOFS. The clock divider (spec/44_clock_divider.md): the two reads of the host (R216, R251), the ticks
of one CLOCK (R212 to R214) and those of a run of CLOCKs (R215).
-/

namespace Sys2Proof.Machine

/-- Settles O29: either operation hands back what it reads. -/
theorem getsampleAndDumpregsOnlyRead : Obligations.GetsampleAndDumpregsOnlyRead :=
  fun _ => ⟨rfl, rfl⟩

/-! ## What the generators depend on (spec/44_clock_divider.md R213)

A tick reads the register file and the generators, and but for `GATE` it writes the generators alone.
So a tick commutes with a change of any other field. -/

/-- `r` with the register file and the generators of `s`. -/
def State.withGenerators (r s : State) : State :=
  { r with
    regs := s.regs, tc := s.tc, te := s.te, nc := s.nc, lfsr := s.lfsr, nh := s.nh, nm := s.nm
    ec := s.ec, epos := s.epos }

theorem toneStep_withGenerators (r s : State) (ch : Channel) :
    toneStep ch (r.withGenerators s) = r.withGenerators (toneStep ch s) := by
  unfold toneStep
  rw [apply_ite r.withGenerators]
  rfl

theorem toneTick_withGenerators (r s : State) :
    toneTick (r.withGenerators s) = r.withGenerators (toneTick s) := by
  simp only [toneTick, toneStep_withGenerators]

theorem noiseTick_withGenerators (r s : State) :
    noiseTick (r.withGenerators s) = r.withGenerators (noiseTick s) := by
  simp only [noiseTick, apply_ite r.withGenerators]
  rfl

theorem envTick_withGenerators (r s : State) :
    envTick (r.withGenerators s) = r.withGenerators (envTick s) := by
  unfold envTick
  rw [apply_ite r.withGenerators]
  rfl

/-- A tick of `r` with the generators of `s` gives them the values a tick of `s` does, and adds their
gate mask to the gate of `r`. -/
theorem tick_withGenerators (r s : State) :
    tick (r.withGenerators s) = accumulateGate (r.withGenerators (tick s)) := by
  unfold tick
  rw [toneTick_withGenerators, noiseTick_withGenerators, envTick_withGenerators]
  rfl

/-- No tick reads `ACC`. -/
theorem tick_setAcc (s : State) (k : Nat) : tick { s with acc := k } = { tick s with acc := k } := by
  have hs : tick s = accumulateGate (s.withGenerators (tick s)) := tick_withGenerators s s
  have hk := tick_withGenerators { s with acc := k } s
  rw [hs]
  exact hk

/-- `t` has the register file and the generators of `s`. -/
def SameGenerators (s t : State) : Prop := t.withGenerators s = t

theorem SameGenerators.fields {s t : State} (h : SameGenerators s t) :
    t.tc = s.tc ∧ t.te = s.te ∧ t.nc = s.nc ∧ t.lfsr = s.lfsr ∧ t.nh = s.nh ∧ t.nm = s.nm ∧
      t.ec = s.ec ∧ t.epos = s.epos := by
  unfold SameGenerators at h
  rw [← h]
  exact ⟨rfl, rfl, rfl, rfl, rfl, rfl, rfl, rfl⟩

theorem SameGenerators.trans {s t u : State} (hst : SameGenerators s t) (htu : SameGenerators t u) :
    SameGenerators s u := by
  unfold SameGenerators at hst htu ⊢
  rw [← htu, ← hst]
  rfl

theorem sameGenerators_tick {s t : State} (h : SameGenerators s t) :
    SameGenerators (tick s) (tick t) := by
  have ht : tick t = accumulateGate (t.withGenerators (tick s)) := by
    rw [← tick_withGenerators, h]
  rw [ht]
  rfl

theorem sameGenerators_tick_iterate {s t : State} (h : SameGenerators s t) (n : Nat) :
    SameGenerators (tick^[n] s) (tick^[n] t) := by
  induction n with
  | zero => exact h
  | succ n ih =>
    rw [Function.iterate_succ_apply', Function.iterate_succ_apply']
    exact sameGenerators_tick ih

/-! ## The ticks of one CLOCK (spec/44_clock_divider.md R214) -/

/-- The loop of CLOCK takes `n` ticks from `s`: at least one, and no more than it takes to reach
`INTERNAL_RATE`. -/
structure State.TicksDue (s : State) (n : Nat) : Prop where
  pos : 1 ≤ n
  reach : s.cfg.internalRate ≤ s.acc + n * s.cfg.hostRate
  short : ∀ m, 1 ≤ m → m < n → s.acc + m * s.cfg.hostRate < s.cfg.internalRate

section WellFormed

variable {s : State} (hwf : s.cfg.wf = true)
include hwf

/-- `INTERNAL_RATE` ticks reach the boundary, because each adds at least 1 (log 13). -/
theorem internalRate_ticks_reach :
    1 ≤ s.cfg.internalRate ∧
      s.cfg.internalRate ≤ s.acc + s.cfg.internalRate * s.cfg.hostRate := by
  obtain ⟨-, hrate, hle, -⟩ := (config_wf_iff s.cfg).mp hwf
  exact ⟨hrate.trans hle, (Nat.le_mul_of_pos_right _ hrate).trans (Nat.le_add_left _ _)⟩

theorem exists_ticksDue : ∃ n, s.TicksDue n := by
  have hex : ∃ n, 1 ≤ n ∧ s.cfg.internalRate ≤ s.acc + n * s.cfg.hostRate :=
    ⟨_, internalRate_ticks_reach hwf⟩
  obtain ⟨hpos, hreach⟩ := Nat.find_spec hex
  exact ⟨_, hpos, hreach, fun m hm hlt => Nat.not_le.mp fun h => Nat.find_min hex hlt ⟨hm, h⟩⟩

theorem ticksDue_le_internalRate {n : Nat} (h : s.TicksDue n) : n ≤ s.cfg.internalRate := by
  obtain ⟨hpos, hreach⟩ := internalRate_ticks_reach hwf
  by_contra hlt
  exact absurd (h.short _ hpos (Nat.not_le.mp hlt)) (Nat.not_lt.mpr hreach)

end WellFormed

/-- One tick nearer to the boundary, one tick fewer is due. -/
theorem ticksDue_tickAndCount {s : State} {n : Nat} (h : s.TicksDue (n + 1))
    (hshort : s.acc + s.cfg.hostRate < s.cfg.internalRate) : (tickAndCount s).TicksDue n := by
  obtain ⟨-, hreach, hmin⟩ := h
  have hacc (m : Nat) : (tickAndCount s).acc + m * (tickAndCount s).cfg.hostRate =
      s.acc + (m + 1) * s.cfg.hostRate := by
    rw [tickAndCount_acc, Nat.succ_mul]
    simp only [tickAndCount_frame]
    omega
  refine ⟨?_, ?_, fun m hm hlt => ?_⟩
  · by_contra hzero
    obtain rfl : n = 0 := by omega
    omega
  · rw [hacc]
    simpa using hreach
  · rw [hacc]
    simpa using hmin (m + 1) (by omega) (by omega)

/-- With fuel for the ticks that are due, the loop of CLOCK takes them all and no more. -/
theorem clockTicks_eq_iterate {fuel n : Nat} {s : State} (h : s.TicksDue n) (hfuel : n ≤ fuel) :
    clockTicks fuel s = tickAndCount^[n] s := by
  induction fuel generalizing n s with
  | zero => exact absurd h.pos (by omega)
  | succ fuel ih =>
    obtain ⟨k, rfl⟩ := Nat.exists_eq_add_of_le' h.pos
    unfold clockTicks
    simp only [tickAndCount_acc, tickAndCount_frame, Function.iterate_succ_apply]
    split
    case isTrue hend =>
      have hk : k = 0 := by
        by_contra hk
        have hshort := h.short 1 le_rfl (by omega)
        omega
      rw [hk, Function.iterate_zero_apply]
    case isFalse hgo =>
      exact ih (ticksDue_tickAndCount h (Nat.not_le.mp hgo)) (by omega)

@[simp] theorem tick_iterate_cfg (n : Nat) (s : State) : (tick^[n] s).cfg = s.cfg := by
  induction n with
  | zero => rfl
  | succ n ih => simp [Function.iterate_succ_apply', ih]

theorem tickAndCount_iterate (n : Nat) (s : State) :
    tickAndCount^[n] s = { tick^[n] s with acc := s.acc + n * s.cfg.hostRate } := by
  induction n with
  | zero => simp
  | succ n ih =>
    rw [Function.iterate_succ_apply', Function.iterate_succ_apply', ih, tickAndCount, tick_setAcc]
    simp [Nat.succ_mul, Nat.add_assoc]

/-- CLOCK, with the ticks that are due in place of its loop (R214). -/
theorem clockSample_eq {s : State} {n : Nat} (hwf : s.cfg.wf = true) (h : s.TicksDue n) :
    clockSample s =
      { mix { tick^[n] (resolveToneResets s) with
          acc := s.acc + n * s.cfg.hostRate - s.cfg.internalRate } with gate := 0 } := by
  have hr : (resolveToneResets s).TicksDue n :=
    ⟨h.pos, by simpa using h.reach, by simpa using h.short⟩
  have hloop := clockTicks_eq_iterate hr (ticksDue_le_internalRate (by simpa using hwf) hr)
  rw [tickAndCount_iterate] at hloop
  simp only [resolveToneResets_frame] at hloop
  unfold clockSample
  rw [hloop]
  simp

theorem resolveToneReset_eq (ch : Channel) (s : State) :
    resolveToneReset ch s =
      { s with tc := (resolveToneReset ch s).tc, tr := (resolveToneReset ch s).tr } := by
  unfold resolveToneReset
  split
  · rfl
  · rfl

/-- The deferred resets clear the pending counters and every flag (R113). -/
theorem resolveToneResets_eq (s : State) :
    resolveToneResets s =
      { s with
        tc := ⟨if s.tr.a then 0 else s.tc.a, if s.tr.b then 0 else s.tc.b,
          if s.tr.c then 0 else s.tc.c⟩
        tr := ⟨false, false, false⟩ } := by
  have htc : (resolveToneResets s).tc = ⟨if s.tr.a then 0 else s.tc.a,
      if s.tr.b then 0 else s.tc.b, if s.tr.c then 0 else s.tc.c⟩ :=
    PerChannel.ext_get fun ch => (resolveToneResets_tc s ch).trans (by cases ch <;> rfl)
  have htr : (resolveToneResets s).tr = ⟨false, false, false⟩ :=
    PerChannel.ext_get fun ch => (resolveToneResets_tr s ch).trans (by cases ch <;> rfl)
  have hframe : resolveToneResets s =
      { s with tc := (resolveToneResets s).tc, tr := (resolveToneResets s).tr } := by
    unfold resolveToneResets
    rw [resolveToneReset_eq .c, resolveToneReset_eq .b, resolveToneReset_eq .a]
  rw [hframe, htc, htr]

/-- Settles O56: the ticks that are due are the loop's, and the deferred resets come first. -/
theorem clockTicksUntilTheSampleBoundary : Obligations.ClockTicksUntilTheSampleBoundary := by
  intro s hwf
  obtain ⟨n, hdue⟩ := exists_ticksDue hwf
  refine ⟨n, hdue.pos, hdue.reach, hdue.short, ?_⟩
  rw [← resolveToneResets_eq]
  exact congrArg Host.Outcome.next (clockSample_eq hwf hdue)

/-! ## The ticks of a run of CLOCKs (spec/44_clock_divider.md R215) -/

/-- `T(n)` of R215, the ticks of `n` CLOCKs from `ACC` = 0. -/
def ticksThrough (c : Config) (n : Nat) : Nat :=
  (n * c.internalRate + c.hostRate - 1) / c.hostRate

section Rates

variable {c : Config} (hrate : 1 ≤ c.hostRate)
include hrate

/-- `T(n)` is the least number of ticks that reaches `n` sample boundaries. -/
theorem ticksThrough_le_iff (n m : Nat) :
    ticksThrough c n ≤ m ↔ n * c.internalRate ≤ m * c.hostRate := by
  rw [ticksThrough, Nat.div_le_iff_le_mul_add_pred hrate, Nat.mul_comm c.hostRate]
  omega

theorem ticksThrough_zero : ticksThrough c 0 = 0 :=
  Nat.le_zero.mp ((ticksThrough_le_iff hrate 0 0).mpr (by simp))

/-- `T(n)` ticks end less than one `HOST_RATE` past the last boundary. -/
theorem ticksThrough_mul_lt (n : Nat) :
    ticksThrough c n * c.hostRate < n * c.internalRate + c.hostRate := by
  have h : ticksThrough c n * c.hostRate ≤ n * c.internalRate + c.hostRate - 1 :=
    Nat.div_mul_le_self _ _
  omega

end Rates

/-- What CLOCK leaves in `ACC` and in the generators: Mix and the gate clear write neither. -/
theorem clockSample_acc_generators {s : State} {n : Nat} (hwf : s.cfg.wf = true)
    (h : s.TicksDue n) :
    (clockSample s).acc + s.cfg.internalRate = s.acc + n * s.cfg.hostRate ∧
      SameGenerators (tick^[n] (resolveToneResets s)) (clockSample s) := by
  rw [clockSample_eq hwf h]
  exact ⟨Nat.sub_add_cancel h.reach, rfl⟩

/-- After `n` CLOCKs, the next takes the ticks from `T(n)` to `T(n + 1)`. -/
theorem exists_ticksDue_ticksThrough {s : State} {n : Nat} (hwf : s.cfg.wf = true)
    (hacc : s.acc + n * s.cfg.internalRate = ticksThrough s.cfg n * s.cfg.hostRate) :
    ∃ k, s.TicksDue k ∧ ticksThrough s.cfg (n + 1) = k + ticksThrough s.cfg n := by
  obtain ⟨-, hrate, hle, -⟩ := (config_wf_iff s.cfg).mp hwf
  have hlt := ticksThrough_mul_lt hrate n
  have hmore : ticksThrough s.cfg n < ticksThrough s.cfg (n + 1) := by
    rw [← Nat.not_le, ticksThrough_le_iff hrate, Nat.succ_mul]
    omega
  have hreach (m : Nat) : ticksThrough s.cfg (n + 1) ≤ m + ticksThrough s.cfg n ↔
      s.cfg.internalRate ≤ s.acc + m * s.cfg.hostRate := by
    rw [ticksThrough_le_iff hrate, Nat.succ_mul, Nat.add_mul]
    omega
  refine ⟨ticksThrough s.cfg (n + 1) - ticksThrough s.cfg n, ⟨by omega, ?_, fun m _ hm => ?_⟩,
    by omega⟩
  · exact (hreach _).mp (by omega)
  · exact Nat.not_le.mp fun h => absurd ((hreach m).mpr h) (by omega)

/-- A run of CLOCKs completes, since every CLOCK does. -/
theorem execTimes_clock (n : Nat) (s : State) :
    execTimes .clock n s = .next (clockSample^[n] s) := by
  induction n generalizing s with
  | zero => rfl
  | succ n ih => exact ih (clockSample s)

theorem resolveToneReset_of_idle {ch : Channel} {s : State} (h : s.tr.get ch = false) :
    resolveToneReset ch s = s := by
  simp [resolveToneReset, h]

/-- Resolving again after a CLOCK changes nothing. -/
theorem resolveToneResets_clockSample (s : State) :
    resolveToneResets (clockSample s) = clockSample s := by
  simp only [resolveToneResets, resolveToneReset_of_idle (clockSample_tr s _)]

/-- What `n` CLOCKs from `ACC` = 0 leave: the exact remainder in `ACC`, and the generators `T(n)` ticks
after the deferred resets. Those still pending when `n` is 0 are resolved on either side. -/
structure ClockedFrom (s : State) (n : Nat) (t : State) : Prop where
  cfg : t.cfg = s.cfg
  acc : t.acc + n * s.cfg.internalRate = ticksThrough s.cfg n * s.cfg.hostRate
  generators : SameGenerators (tick^[ticksThrough s.cfg n] (resolveToneResets s)) (resolveToneResets t)

theorem clockedFrom_succ {s t : State} {n : Nat} (hwf : s.cfg.wf = true) (h : ClockedFrom s n t) :
    ClockedFrom s (n + 1) (clockSample t) := by
  obtain ⟨hcfg, hacc, hgen⟩ := h
  rw [← hcfg] at hwf hacc hgen
  obtain ⟨k, hdue, hsucc⟩ := exists_ticksDue_ticksThrough hwf hacc
  obtain ⟨hacc', hticks⟩ := clockSample_acc_generators hwf hdue
  refine ⟨by simpa using hcfg, ?_, ?_⟩
  · rw [← hcfg, hsucc, Nat.add_mul k, Nat.succ_mul]
    omega
  · rw [← hcfg, hsucc, Function.iterate_add_apply, resolveToneResets_clockSample]
    exact (sameGenerators_tick_iterate hgen k).trans hticks

theorem clockedFrom_iterate {s : State} (hwf : s.cfg.wf = true) (hacc : s.acc = 0) (n : Nat) :
    ClockedFrom s n (clockSample^[n] s) := by
  obtain ⟨-, hrate, -⟩ := (config_wf_iff s.cfg).mp hwf
  induction n with
  | zero =>
    refine ⟨rfl, ?_, ?_⟩
    · simp [hacc, ticksThrough_zero hrate]
    · rw [ticksThrough_zero hrate]
      rfl
  | succ n ih =>
    rw [Function.iterate_succ_apply']
    exact clockedFrom_succ hwf ih

/-- The deferred resets wait for the first CLOCK: without one, the counters are those of `s`. -/
theorem sameGenerators_clock_iterate {s : State} (hwf : s.cfg.wf = true) (hacc : s.acc = 0) (n : Nat) :
    SameGenerators
      (tick^[ticksThrough s.cfg n] { s with
        tc := ⟨if 1 ≤ n ∧ s.tr.a then 0 else s.tc.a, if 1 ≤ n ∧ s.tr.b then 0 else s.tc.b,
          if 1 ≤ n ∧ s.tr.c then 0 else s.tc.c⟩ })
      (clockSample^[n] s) := by
  obtain ⟨-, hrate, -⟩ := (config_wf_iff s.cfg).mp hwf
  cases n with
  | zero =>
    rw [ticksThrough_zero hrate]
    rfl
  | succ n =>
    have hgen := (clockedFrom_iterate hwf hacc (n + 1)).generators
    rw [Function.iterate_succ_apply', resolveToneResets_clockSample,
      ← Function.iterate_succ_apply' clockSample] at hgen
    refine (sameGenerators_tick_iterate ?_ _).trans hgen
    simp only [Nat.le_add_left, true_and, resolveToneResets_eq]
    rfl

/-- Settles O57, by induction on the number of CLOCKs: each takes the ticks from `T(n)` to `T(n + 1)`. -/
theorem clocksRunExactlyTheCeilingOfTicks : Obligations.ClocksRunExactlyTheCeilingOfTicks := by
  rintro s _ n _ hwf hacc rfl rfl
  exact ⟨clockSample^[n] s, execTimes_clock n s, (clockedFrom_iterate hwf hacc n).acc,
    (sameGenerators_clock_iterate hwf hacc n).fields⟩

end Sys2Proof.Machine
end

section
/-!
PROOFS. Register access (spec/45_register_access.md): the writes and the reads of one register
(R230 to R248), and the writes and reads of the whole file (R250 to R252).
-/

namespace Sys2Proof.Machine

/-! ## WriteReg as an update of the state (R236) -/

/-- At the address of a register other than R[13], WriteReg is the store alone. -/
theorem writeReg_of_ne_shape {a : Byte} {i : Fin 16} (ha : a.toNat = i.val) (hi : i ≠ 13) (d : Byte)
    (s : State) : writeReg a d s = storeReg i d s := by
  have hindex : (⟨a.toNat, ha ▸ i.isLt⟩ : Fin 16) = i := Fin.ext ha
  rw [writeReg_of_lt (ha ▸ i.isLt), hindex, writeEffect_of_ne hi]

/-- At address 13 WriteReg restarts the envelope after the store (R245). -/
theorem writeReg_shape {a : Byte} (ha : a.toNat = 13) (d : Byte) (s : State) :
    writeReg a d s = envRestart (storeReg 13 d s) := by
  have hlt : a.toNat < 16 := by omega
  have hindex : (⟨a.toNat, hlt⟩ : Fin 16) = 13 := Fin.ext ha
  rw [writeReg_of_lt hlt, hindex, writeEffect_shape]

/-- WRREG of a register other than R[13] sets `LATCH` and stores the masked byte (R234). -/
theorem latchedWrite_of_ne_shape {a : Byte} {i : Fin 16} (ha : a.toNat = i.val) (hi : i ≠ 13)
    (d : Byte) (s : State) :
    latchedWrite a d s = { s with latch := a, regs := s.regs.set i (d &&& regMask[i]) } :=
  writeReg_of_ne_shape ha hi d (setLatch a s)

/-- WRREG at an unmapped address sets `LATCH` (R248). -/
theorem latchedWrite_of_ge {a : Byte} (ha : 16 ≤ a.toNat) (d : Byte) (s : State) :
    latchedWrite a d s = setLatch a s :=
  writeReg_of_ge ha d (setLatch a s)

/-- Settles O21: the operation is the update of `LATCH`. -/
theorem latchSelectsTheAddress : Obligations.LatchSelectsTheAddress := fun _ _ => rfl

/-- Settles O22: the three cases of WriteReg at `LATCH`. -/
theorem wrdataWritesTheSelectedRegister : Obligations.WrdataWritesTheSelectedRegister :=
  fun d s =>
    ⟨fun _ hlatch hi => congrArg Host.Outcome.next (writeReg_of_ne_shape hlatch hi d s),
      fun hlatch => congrArg Host.Outcome.next (writeReg_shape hlatch d s),
      fun hlatch => congrArg Host.Outcome.next (writeReg_of_ge hlatch d s)⟩

/-- Settles O27: WriteReg does nothing at such an address, so WRREG leaves its `LATCH` update. -/
theorem outOfRangeWriteIsIgnored : Obligations.OutOfRangeWriteIsIgnored := by
  intro a d s
  have hwrreg (ha : 16 ≤ a.toNat) : exec (.wrregOor16 a d) s = .next { s with latch := a } :=
    congrArg Host.Outcome.next (latchedWrite_of_ge ha d s)
  exact ⟨fun ha => hwrreg (by omega), fun ha _ => hwrreg (by omega), fun ha _ => hwrreg (by omega),
    fun ha _ => hwrreg ha, fun hlatch => congrArg Host.Outcome.next (writeReg_of_ge hlatch d s)⟩

/-- The operation WRREG at the address of a register other than R[13]. -/
theorem exec_wrreg_of_ne_shape {i : Fin 16} (hi : i ≠ 13) (d : Byte) (s : State) :
    exec (decodeWrreg (BitVec.ofNat 8 i.val) d) s = .next
      { s with latch := BitVec.ofNat 8 i.val, regs := s.regs.set i (d &&& regMask[i]) } := by
  have ha : (BitVec.ofNat 8 i.val).toNat = i.val := Nat.mod_eq_of_lt (by omega)
  rw [exec_decodeWrreg, latchedWrite_of_ne_shape ha hi]

/-- Settles O25: the fifteen operations are WRREG at their registers' addresses. -/
theorem wrregStoresTheMaskedByte : Obligations.WrregStoresTheMaskedByte := by
  intro d s
  have wrreg (i : Fin 16) (hi : i ≠ 13) := exec_wrreg_of_ne_shape hi d s
  exact ⟨wrreg 0 (by decide), wrreg 1 (by decide), wrreg 2 (by decide), wrreg 3 (by decide),
    wrreg 4 (by decide), wrreg 5 (by decide), wrreg 6 (by decide), wrreg 7 (by decide),
    wrreg 8 (by decide), wrreg 9 (by decide), wrreg 10 (by decide), wrreg 11 (by decide),
    wrreg 12 (by decide), wrreg 14 (by decide), wrreg 15 (by decide)⟩

/-! ## ReadReg (R230) -/

/-- A read at a mapped address hands back the register. -/
theorem returnReg_of_index {a : Byte} {i : Fin 16} (ha : a.toNat = i.val) (s : State) :
    returnReg a s = handBack (.byte (s.reg i)) s := by
  simp [returnReg, readRegValue, readRegState, ha]

/-- A read at an unmapped address hands back the draw `OOR_READ` and uses it up. -/
theorem returnReg_of_ge {a : Byte} (ha : 16 ≤ a.toNat) (s : State) :
    returnReg a s = handBack (.byte (drawnRead s)) (useRead s) := by
  simp [returnReg, readRegValue, readRegState, Nat.not_lt.mpr ha]

/-- The draw is the oldest byte the host has fixed (R336). -/
theorem returnReg_of_fixed {a v : Byte} {vs : List Byte} {s : State} (ha : 16 ≤ a.toNat)
    (hfixed : s.fixedReads = v :: vs) :
    returnReg a s = handBack (.byte v) { s with fixedReads := vs } := by
  simp [returnReg_of_ge ha, drawnRead, useRead, hfixed]

/-- With no byte fixed the draw is the next free one. -/
theorem returnReg_of_free {a : Byte} {s : State} (ha : 16 ≤ a.toNat) (hfixed : s.fixedReads = []) :
    returnReg a s =
      handBack (.byte (Config.freeRead s.drawn)) { s with drawn := s.drawn + 1 } := by
  simp [returnReg_of_ge ha, drawnRead, useRead, hfixed]

/-- Settles O23: the three cases of ReadReg at `LATCH`. -/
theorem rddataReturnsTheSelectedRegister : Obligations.RddataReturnsTheSelectedRegister :=
  fun s =>
    ⟨fun _ hlatch => congrArg Host.Outcome.next (returnReg_of_index hlatch s),
      fun _ _ hlatch hfixed => congrArg Host.Outcome.next (returnReg_of_fixed hlatch hfixed),
      fun hlatch hfixed => ⟨_, congrArg Host.Outcome.next (returnReg_of_free hlatch hfixed)⟩⟩

/-- Settles O24: the three cases of ReadReg after the `LATCH` update. -/
theorem rdregReturnsTheNamedRegister : Obligations.RdregReturnsTheNamedRegister :=
  fun a s =>
    ⟨fun _ ha => congrArg Host.Outcome.next (returnReg_of_index ha (setLatch a s)),
      fun _ _ ha hfixed =>
        congrArg Host.Outcome.next (returnReg_of_fixed (s := setLatch a s) ha hfixed),
      fun ha hfixed =>
        ⟨_, congrArg Host.Outcome.next (returnReg_of_free (s := setLatch a s) ha hfixed)⟩⟩

/-! ## What a write does to the derived values (spec/10_state.md R27) -/

/-- Masking with the low `k` bits leaves the remainder modulo `2 ^ k`. -/
theorem toNat_and_lowBits_mod (d : Byte) {m : Byte} {k : Nat} (hm : m.toNat = 2 ^ k - 1) :
    (d &&& m).toNat % 2 ^ k = d.toNat % 2 ^ k := by
  rw [BitVec.toNat_and, hm, Nat.and_two_pow_sub_one_eq_mod, Nat.mod_mod]

/-- `EOFF` from the byte written to R[13] (R245, spec/42_envelope.md R153). -/
theorem eoff_of_reg_shape {s : State} {d : Byte} (h : s.reg 13 = d &&& 0x0F) :
    s.eoff = 128 * (if d.toNat % 16 < 4 then 0 else if d.toNat % 16 < 8 then 1
      else d.toNat % 16 - 6) := by
  have hcode : s.shape.toNat = d.toNat % 16 := by
    rw [State.shape, h, BitVec.extractLsb'_toNat]
    exact toNat_and_lowBits_mod d (k := 4) rfl
  rw [State.eoff, shapePattern, hcode]

/-- Settles O26: by either operation the write is WriteReg at 13. -/
theorem shapeWriteRestartsTheEnvelope : Obligations.ShapeWriteRestartsTheEnvelope := by
  intro d s
  refine ⟨⟨_, rfl, writeReg_shape rfl d (setLatch 13 s), ?_⟩, fun hlatch => ?_⟩
  · exact eoff_of_reg_shape ((reg_latchedWrite 13 d s 13).trans (if_pos rfl))
  · have hwrite := writeReg_shape (congrArg BitVec.toNat hlatch) d s
    have hreg : (envRestart (storeReg 13 d s)).reg 13 = d &&& 0x0F :=
      (reg_storeReg 13 13 d s).trans (if_pos rfl)
    exact ⟨_, congrArg Host.Outcome.next hwrite, rfl, eoff_of_reg_shape hreg⟩

/-- Settles O31: the noise period is R[6] and the enable bits are those of R[7]. -/
theorem noiseAndMixerWritesRecomputeTheirValues :
    Obligations.NoiseAndMixerWritesRecomputeTheirValues := by
  intro d s
  refine ⟨⟨latchedWrite 6 d s, rfl, ?_, by simp only [latchedWrite_frame, and_self]⟩,
    latchedWrite 7 d s, rfl, ?_⟩
  · have hreg : (latchedWrite 6 d s).reg 6 = d &&& 0x1F :=
      (reg_latchedWrite 6 d s 6).trans (if_pos rfl)
    rw [State.np, hreg, BitVec.extractLsb'_toNat]
    exact toNat_and_lowBits_mod d (k := 5) rfl
  · have hreg : (latchedWrite 7 d s).reg 7 = d :=
      ((reg_latchedWrite 7 d s 7).trans (if_pos rfl)).trans (and_fullMask d)
    refine ⟨hreg, fun ch => ?_⟩
    rw [fieldOf_tem, fieldOf_nem, toneOff_eq_getLsbD, noiseOff_eq_getLsbD, hreg]
    exact ⟨rfl, rfl⟩

/-! ## Period writes (R240, R244) -/

/-- WRREG resets no counter of the tone generators (spec/40_tone.md R112). -/
theorem latchedWrite_keeps_tone (a d : Byte) (s : State) :
    (latchedWrite a d s).tc = s.tc ∧ (latchedWrite a d s).te = s.te := by
  simp only [latchedWrite_frame, and_self]

/-- The fine write of a channel sets the low byte of its tone period (R240). -/
theorem exec_wrreg_fine_tp (ch : Channel) (d : Byte) (s : State) :
    ∃ t, exec (decodeWrreg (BitVec.ofNat 8 (fineIndex ch).val) d) s = .next t ∧
      t.tc = s.tc ∧ t.te = s.te ∧
      (t.tp ch).toNat = 256 * ((s.reg (coarseIndex ch)).toNat % 16) + d.toNat := by
  obtain ⟨htc, hte⟩ := latchedWrite_keeps_tone (BitVec.ofNat 8 (fineIndex ch).val) d s
  refine ⟨_, exec_decodeWrreg _ d s, htc, hte, ?_⟩
  have haddr : (BitVec.ofNat 8 (fineIndex ch).val).toNat = (fineIndex ch).val := by
    cases ch <;> rfl
  have hne : (fineIndex ch).val ≠ (coarseIndex ch).val := by cases ch <;> decide
  have hmask : regMask[fineIndex ch] = 0xFF := by cases ch <;> rfl
  rw [tp_toNat, reg_latchedWrite, reg_latchedWrite, haddr, if_neg hne, if_pos rfl, hmask,
    and_fullMask]

/-- The coarse write of a channel sets the high four bits of its tone period (R240). -/
theorem exec_wrreg_coarse_tp (ch : Channel) (d : Byte) (s : State) :
    ∃ t, exec (decodeWrreg (BitVec.ofNat 8 (coarseIndex ch).val) d) s = .next t ∧
      t.tc = s.tc ∧ t.te = s.te ∧
      (t.tp ch).toNat = 256 * (d.toNat % 16) + (s.reg (fineIndex ch)).toNat := by
  obtain ⟨htc, hte⟩ := latchedWrite_keeps_tone (BitVec.ofNat 8 (coarseIndex ch).val) d s
  refine ⟨_, exec_decodeWrreg _ d s, htc, hte, ?_⟩
  have haddr : (BitVec.ofNat 8 (coarseIndex ch).val).toNat = (coarseIndex ch).val := by
    cases ch <;> rfl
  have hne : (coarseIndex ch).val ≠ (fineIndex ch).val := by cases ch <;> decide
  have hmask : regMask[coarseIndex ch] = 0x0F := by cases ch <;> rfl
  have hlow : (d &&& 0x0F).toNat % 16 = d.toNat % 16 := toNat_and_lowBits_mod d (k := 4) rfl
  rw [tp_toNat, reg_latchedWrite, reg_latchedWrite, haddr, if_neg hne, if_pos rfl, hmask, hlow]

theorem ep_toNat (s : State) : s.ep.toNat = 256 * (s.reg 12).toNat + (s.reg 11).toNat := by
  have hlt := (s.reg 11).isLt
  rw [State.ep, BitVec.toNat_append, ← Nat.shiftLeft_add_eq_or_of_lt hlt, Nat.shiftLeft_eq]
  omega

/-- WRREG of a register other than R[13] resets no counter of the envelope
(spec/42_envelope.md R156). -/
theorem latchedWrite_keeps_envelope {a : Byte} (ha : a.toNat ≠ 13) (d : Byte) (s : State) :
    (latchedWrite a d s).ec = s.ec ∧ (latchedWrite a d s).epos = s.epos := by
  have henv := latchedWrite_envelope_of_ne ha d s
  exact ⟨congrArg Prod.snd henv, congrArg Prod.fst henv⟩

/-- The low write sets the low byte of the envelope period (R244). -/
theorem exec_wrregR11_ep (d : Byte) (s : State) :
    ∃ t, exec (.wrregR11 d) s = .next t ∧ t.ec = s.ec ∧ t.epos = s.epos ∧
      t.ep.toNat = 256 * (s.reg 12).toNat + d.toNat := by
  obtain ⟨hec, hepos⟩ := latchedWrite_keeps_envelope (a := 11) (by decide) d s
  refine ⟨_, rfl, hec, hepos, ?_⟩
  have hlow : (latchedWrite 11 d s).reg 11 = d :=
    ((reg_latchedWrite 11 d s 11).trans (if_pos rfl)).trans (and_fullMask d)
  have hhigh : (latchedWrite 11 d s).reg 12 = s.reg 12 :=
    (reg_latchedWrite 11 d s 12).trans (if_neg (by decide))
  rw [ep_toNat, hlow, hhigh]

/-- The high write sets the high byte of the envelope period (R244). -/
theorem exec_wrregR12_ep (d : Byte) (s : State) :
    ∃ t, exec (.wrregR12 d) s = .next t ∧ t.ec = s.ec ∧ t.epos = s.epos ∧
      t.ep.toNat = 256 * d.toNat + (s.reg 11).toNat := by
  obtain ⟨hec, hepos⟩ := latchedWrite_keeps_envelope (a := 12) (by decide) d s
  refine ⟨_, rfl, hec, hepos, ?_⟩
  have hhigh : (latchedWrite 12 d s).reg 12 = d :=
    ((reg_latchedWrite 12 d s 12).trans (if_pos rfl)).trans (and_fullMask d)
  have hlow : (latchedWrite 12 d s).reg 11 = s.reg 11 :=
    (reg_latchedWrite 12 d s 11).trans (if_neg (by decide))
  rw [ep_toNat, hhigh, hlow]

/-- Settles O32: the two tone writes of each channel, then the two envelope writes. -/
theorem periodWritesTakeEffectByteByByte : Obligations.PeriodWritesTakeEffectByteByByte :=
  fun d s =>
    ⟨exec_wrreg_fine_tp .a d s, exec_wrreg_coarse_tp .a d s, exec_wrreg_fine_tp .b d s,
      exec_wrreg_coarse_tp .b d s, exec_wrreg_fine_tp .c d s, exec_wrreg_coarse_tp .c d s,
      exec_wrregR11_ep d s, exec_wrregR12_ep d s⟩

/-! ## The whole register file (R250 to R252) -/

/-- The loop of LOADREGS writes each register it has come to, but R[13] under the sentinel. -/
theorem reg_foldl_loadReg (f : Vector Byte 16) (is : List (Fin 16)) (s : State) (j : Fin 16) :
    (is.foldl (loadReg f) s).reg j =
      if j ∈ is then (if j = 13 ∧ f[j] = 0xFF then s.reg j else f[j] &&& regMask[j])
      else s.reg j := by
  induction is generalizing s with
  | nil => rfl
  | cons i is ih =>
    rw [List.foldl_cons, ih, reg_loadReg]
    by_cases hji : j = i
    · subst hji
      by_cases hkeep : j = 13 ∧ f[j] = 0xFF
      · simp only [if_pos hkeep, ite_self]
      · simp only [if_neg hkeep, if_true, ite_self, List.mem_cons, true_or]
    · simp only [hji, if_false, List.mem_cons, false_or]

/-- The register file after LOADREGS (R250). -/
theorem loadFrame_regs (f : Vector Byte 16) (s : State) :
    (loadFrame f s).regs = Vector.ofFn fun i : Fin 16 =>
      if i = 13 ∧ f[13] = 0xFF then s.reg i else f[i] &&& regMask[i] := by
  ext k hk : 1
  have hreg := reg_foldl_loadReg f (List.finRange 16) s ⟨k, hk⟩
  rw [if_pos (List.mem_finRange _)] at hreg
  rw [Vector.getElem_ofFn]
  refine hreg.trans (if_congr (and_congr_right fun h13 => ?_) rfl rfl)
  rw [h13]
  rfl

/-- The next state of LOADREGS (R250): its registers, its envelope and its frame. -/
theorem loadFrame_eq (f : Vector Byte 16) (s : State) :
    loadFrame f s =
      { s with
        regs := Vector.ofFn fun i : Fin 16 =>
          if i = 13 ∧ f[13] = 0xFF then s.reg i else f[i] &&& regMask[i]
        epos := if f[13] = 0xFF then s.epos else -64
        ec := if f[13] = 0xFF then s.ec else 0 } := by
  have hregs := loadFrame_regs f s
  have henv : (loadFrame f s).envelope =
      (if f[13] = 0xFF then s.epos else -64, if f[13] = 0xFF then s.ec else 0) := by
    rw [loadFrame_envelope, ite_not]
    split <;> rfl
  have hframe := loadFrame_frame f s
  generalize loadFrame f s = t at hregs henv hframe ⊢
  cases t
  simp only [State.envelope, Prod.mk.injEq, State.mk.injEq] at hregs henv hframe ⊢
  simp only [hregs, henv, hframe, and_self]

/-- Settles O28: byte 13 of the frame is byte 1 of the last data word. -/
theorem loadregsWritesTheWholeFrame : Obligations.LoadregsWritesTheWholeFrame :=
  fun v0 v1 v2 v3 s => congrArg Host.Outcome.next (loadFrame_eq (frameOfWords v0 v1 v2 v3) s)

/-- A mask leaves a byte that is inside it. -/
theorem and_eq_self_of_masked {v m : Byte} (h : v &&& ~~~m = 0) : v &&& m = v := by
  calc v &&& m = (v &&& m) ||| (v &&& ~~~m) := by rw [h]; exact (BitVec.or_zero).symm
    _ = v &&& (m ||| ~~~m) := BitVec.and_or_distrib_left.symm
    _ = v := by rw [BitVec.or_not_self]; exact and_fullMask v

/-- Loading back the register file restarts the envelope and does nothing else (R252): R[13] has
four bits, so it is not the sentinel. -/
theorem loadFrame_eq_envRestart {f : Vector Byte 16} {s : State} (hf : f = s.regs)
    (hmasked : ∀ i : Fin 16, s.reg i &&& ~~~regMask[i] = 0) : loadFrame f s = envRestart s := by
  subst hf
  have hsentinel : s.regs[13] ≠ 0xFF := by
    intro hff
    have h13 : s.regs[13] &&& ~~~0x0F = 0 := hmasked 13
    rw [hff] at h13
    exact absurd h13 (by decide)
  have hregs : (loadFrame s.regs s).regs = s.regs := by
    rw [loadFrame_regs]
    ext k hk : 1
    rw [Vector.getElem_ofFn, if_neg fun h => hsentinel h.2]
    exact and_eq_self_of_masked (hmasked ⟨k, hk⟩)
  rw [loadFrame_eq, ← loadFrame_regs, hregs, if_neg hsentinel, if_neg hsentinel]
  rfl

/-- Settles O30: the dump leaves the register file, and the frame loaded is that file. -/
theorem dumpThenLoadRestartsOnlyTheEnvelope :
    Obligations.DumpThenLoadRestartsOnlyTheEnvelope :=
  fun s _ _ _ _ hmasked hframe =>
    ⟨handBack (.frame s.regs) s, rfl, rfl, congrArg Host.Outcome.next
      (loadFrame_eq_envRestart (s := handBack (.frame s.regs) s) hframe hmasked)⟩

end Sys2Proof.Machine
end

section
/-!
PROOFS. The control operations (spec/46_control_ops.md): NOP, SETFILTER, TONERESET, ENVTRIG, SETOVR and
CLROVR (R270 to R275, R277), and RESET (R276).
-/

namespace Sys2Proof.Machine

/-! ## The operations that set one piece of state -/

/-- Settles O34: NOP is the identity. -/
theorem nopChangesNothing : Obligations.NopChangesNothing := fun _ => rfl

/-- Settles O35: the operation is the update of `FILT`. -/
theorem setfilterKeepsTheHistory : Obligations.SetfilterKeepsTheHistory := fun _ _ => rfl

/-- Settles O36: each operation is `requestToneReset` on its channel. -/
theorem toneresetOnlySetsTheFlag : Obligations.ToneresetOnlySetsTheFlag :=
  fun _ => ⟨rfl, rfl, rfl⟩

/-- Settles O37: the operation is `envRestart`. -/
theorem envtrigRestartsTheEnvelope : Obligations.EnvtrigRestartsTheEnvelope := fun _ => rfl

/-- Settles O38: each operation is `setOverride` on its channel, with the level or with none. -/
theorem overridesAreSetAndCleared : Obligations.OverridesAreSetAndCleared :=
  fun _ _ => ⟨rfl, rfl, rfl, rfl, rfl, rfl⟩

/-! ## RESET (R276) -/

/-- A RESET draw is the oldest one the host has fixed, which is used up, or else a free one, which is
counted (log 2, 4). -/
theorem drawnReset_source (s : State) :
    (s.fixedResets = drawnReset s :: (useReset s).fixedResets ∧ (useReset s).drawn = s.drawn) ∨
      (s.fixedResets = [] ∧ (useReset s).fixedResets = [] ∧
        (useReset s).drawn = s.drawn + 1) := by
  cases h : s.fixedResets with
  | nil => exact .inr (by simp only [useReset, h, and_self])
  | cons d ds => exact .inl (by simp only [drawnReset, useReset, h, and_self])

/-- RESET is the reset under its draw, and of the host port it changes the supply of RESET draws
alone (R276). -/
theorem exec_reset_eq (s : State) :
    exec .reset s = .next
      { resetWith (drawnReset s) s with
        fixedResets := (useReset s).fixedResets
        drawn := (useReset s).drawn } := by
  simp only [exec, execReset, resetWith, useReset_frame]

/-- Settles O39: the draw is `drawnReset`, and what `useReset` leaves of the supply stays. -/
theorem resetReachesTheResetState : Obligations.ResetReachesTheResetState :=
  fun s => ⟨drawnReset s, (useReset s).fixedResets, (useReset s).drawn, drawnReset_source s,
    resetDraw_seed_ne_zero _, resetDraw_edge _, exec_reset_eq s⟩

end Sys2Proof.Machine
end

section
/-!
PROOFS. Silence from reset (spec/70_reset_and_hazards.md R333): the state of R38 is silent, and only
an amplitude write or a SETOVR can end the silence.
-/

namespace Sys2Proof.Machine

/-! ## Silent states -/

/-- The state of R38 is silent where `LVL[0]` is 0, whatever the draws. -/
theorem silent_initial {cfg : Config} (h : lvlAt cfg 0 = 0) (d : ResetDraw) :
    (State.initial cfg d).Silent where
  amp_zero := fun ch => by simp [State.initial, State.reg]
  no_override := PerChannel.get_all none
  lvl_zero := h
  ring_zero := fun _ => List.eq_of_mem_replicate
  sum_zero := rfl
  fy1_zero := rfl
  fy2_zero := rfl
  sample_zero := rfl

/-- RESET puts every field silence speaks of where construction puts it (R276). -/
theorem silent_resetWith (d : ResetDraw) {s : State} (h : lvlAt s.cfg 0 = 0) :
    (resetWith d s).Silent :=
  { silent_initial h d with }

/-- The amplitude registers apart, silence depends on the overrides, the configuration, the filters
and `SAMPLE` alone. -/
theorem State.Silent.of_eq {s t : State} (hs : s.Silent)
    (hamp : ∀ ch, t.reg (ampIndex ch) = 0)
    (h : t.ovr = s.ovr ∧ t.cfg = s.cfg ∧ t.dch = s.dch ∧ t.dcs = s.dcs ∧ t.fy1 = s.fy1 ∧
      t.fy2 = s.fy2 ∧ t.sample = s.sample) : t.Silent := by
  obtain ⟨hovr, hcfg, hdch, hdcs, hfy1, hfy2, hsample⟩ := h
  exact {
    amp_zero := hamp
    no_override := hovr ▸ hs.no_override
    lvl_zero := hcfg ▸ hs.lvl_zero
    ring_zero := hdch ▸ hs.ring_zero
    sum_zero := hdcs.trans hs.sum_zero
    fy1_zero := hfy1.trans hs.fy1_zero
    fy2_zero := hfy2.trans hs.fy2_zero
    sample_zero := hsample.trans hs.sample_zero }

/-! ## The host's updates keep silence -/

theorem ne_ampIndex_of_ge {a : Byte} (h : 16 ≤ a.toNat) (ch : Channel) :
    a.toNat ≠ ampIndex ch := by
  have hlt := (ampIndex ch).isLt
  omega

theorem ne_ampIndex_of_ne {a : Byte} (h : a ≠ 8 ∧ a ≠ 9 ∧ a ≠ 10) (ch : Channel) :
    a.toNat ≠ ampIndex ch := by
  obtain ⟨h8, h9, h10⟩ := h
  cases ch with
  | a => exact fun e => h8 (BitVec.eq_of_toNat_eq e)
  | b => exact fun e => h9 (BitVec.eq_of_toNat_eq e)
  | c => exact fun e => h10 (BitVec.eq_of_toNat_eq e)

section HostUpdates

variable {s : State} (hs : s.Silent)
include hs

theorem silent_setLatch (a : Byte) : (setLatch a s).Silent := { hs with }

theorem silent_handBack (r : Result) : (handBack r s).Silent := { hs with }

theorem silent_requestToneReset (ch : Channel) : (requestToneReset ch s).Silent := { hs with }

theorem silent_writeReg {a : Byte} (ha : ∀ ch, a.toNat ≠ ampIndex ch) (d : Byte) :
    (writeReg a d s).Silent :=
  hs.of_eq (fun ch => by rw [reg_writeReg, if_neg (ha ch), hs.amp_zero]) (by simp)

theorem silent_latchedWrite {a : Byte} (ha : ∀ ch, a.toNat ≠ ampIndex ch) (d : Byte) :
    (latchedWrite a d s).Silent :=
  silent_writeReg (silent_setLatch hs a) ha d

theorem silent_returnReg (a : Byte) : (returnReg a s).Silent :=
  hs.of_eq (fun ch => (State.reg_congr (by simp) _).trans (hs.amp_zero ch)) (by simp)

/-- A frame with 0 in its three amplitude bytes keeps silence (R250). -/
theorem silent_loadFrame {f : Vector Byte 16} (hf : ∀ ch, f[ampIndex ch] = 0) :
    (loadFrame f s).Silent := by
  refine hs.of_eq (fun ch => ?_) (by simp)
  rw [loadFrame, reg_foldl_loadReg, if_pos (List.mem_finRange _), hf, hs.amp_zero]
  exact ite_eq_left_iff.mpr fun _ => BitVec.zero_and

theorem silent_clearOverride (ch : Channel) : (setOverride ch none s).Silent :=
  { hs with
    no_override := fun ch' => by
      rw [setOverride_ovr, PerChannel.get_set, hs.no_override, ite_self] }

end HostUpdates

/-! ## CLOCK keeps silence (spec/43_mixer_output.md R183 to R194) -/

/-- Level 0 is chosen in every channel, and the gate can only clear bits of it (R183 to R185). -/
theorem levelIndex_of_silent {s : State} (hs : s.Silent) (ch : Channel) : s.levelIndex ch = 0 := by
  have hmode : s.ampMode ch = false := by
    rw [State.ampMode, hs.amp_zero]
    rfl
  have hlevel : s.level5 ch = 0 := by
    apply BitVec.eq_of_toNat_eq
    rw [level5_of_fixed (hs.no_override ch) hmode, hs.amp_zero]
    rfl
  rw [State.levelIndex, hlevel]
  exact BitVec.zero_and

/-- Every amplitude is `LVL[0]` = 0, halved or not (R187 to R189). -/
theorem mixedSum_of_silent {s : State} (hs : s.Silent) : s.mixedSum = 0 := by
  have hamp (ch : Channel) : s.amplitude ch = 0 := by
    rw [State.amplitude, levelIndex_of_silent hs, hs.lvl_zero]
    exact ite_self 0
  rw [State.mixedSum, hamp, hamp, hamp]

/-- A 0 into empty filters leaves them empty and gives the sample +0.0 (R191 to R194). -/
theorem silent_mix {s : State} (hs : s.Silent) (hscale : 1 ≤ s.cfg.outScale) : (mix s).Silent := by
  have hring : ∀ x ∈ (dcUpdate 0 s).dch, x = 0 := fun x hx =>
    (List.mem_or_eq_of_mem_set hx).elim (hs.ring_zero x) id
  have hdropped : s.dch.getD s.dci 0 = 0 := by
    rw [List.getD_eq_getElem?_getD]
    cases h : s.dch[s.dci]? with
    | none => rfl
    | some x => exact hs.ring_zero x (List.mem_of_getElem? h)
  have hdcs : (dcUpdate 0 s).dcs = 0 := by
    rw [dcUpdate_dcs, hdropped, hs.sum_zero]
    rfl
  have hy : dcRemoved 0 (dcUpdate 0 s) = 0 := by
    rw [dcRemoved, hdcs, Int.zero_fdiv]
    rfl
  have hout : outputValue 0 (dcUpdate 0 s) = 0 := by
    have hfir : firValue 0 (dcUpdate 0 s) = 0 := by
      simp [firValue, hs.fy1_zero, hs.fy2_zero]
    rw [outputValue, hfir, ite_self]
  obtain ⟨hzero, -⟩ := sampleClampsAtFullScale 0 s.cfg.outScale hscale
  unfold mix outputStage
  simp only [mixedSum_of_silent hs, hy, hout, hzero rfl]
  exact { hs with
    ring_zero := hring
    sum_zero := hdcs
    fy1_zero := rfl
    fy2_zero := hs.fy1_zero
    sample_zero := rfl }

theorem silent_clockSample {s : State} (hwf : s.cfg.wf = true) (hs : s.Silent) :
    (clockSample s).Silent := by
  obtain ⟨-, -, -, -, -, hscale⟩ := (config_wf_iff s.cfg).mp hwf
  have hticks : (clockTicks s.cfg.internalRate (resolveToneResets s)).Silent :=
    hs.of_eq (fun ch => (State.reg_congr (by simp) _).trans (hs.amp_zero ch)) (by simp)
  have hcfg : (clockTicks s.cfg.internalRate (resolveToneResets s)).cfg = s.cfg := by simp
  unfold clockSample
  generalize clockTicks s.cfg.internalRate (resolveToneResets s) = u at hticks hcfg ⊢
  have hu : ({ u with acc := u.acc - u.cfg.internalRate } : State).Silent := { hticks with }
  exact { silent_mix hu (hcfg ▸ hscale) with }

/-- Settles O60: each operation makes an update that keeps silence. The excluded ones are those that
write an amplitude register or set an override. -/
theorem silenceUntilAnAmplitudeIsWritten : Obligations.SilenceUntilAnAmplitudeIsWritten := by
  refine ⟨{ silent_initial (cfg := Config.default) rfl (Config.freeReset 0) with }, ?_⟩
  intro i s t hcfg hs hwf hwrreg hsetovr hwrdata hload h
  exact match i, h with
  | .nop, rfl => hs
  | .latch a, rfl => silent_setLatch hs a
  | .wrdata d, rfl => silent_writeReg hs (ne_ampIndex_of_ne (hwrdata d rfl)) d
  | .rddata, rfl => silent_returnReg hs s.latch
  | .rdreg a, rfl => silent_returnReg (silent_setLatch hs a) a
  | .wrregR0 d, rfl | .wrregR1 d, rfl | .wrregR2 d, rfl | .wrregR3 d, rfl | .wrregR4 d, rfl
  | .wrregR5 d, rfl | .wrregR6 d, rfl | .wrregR7 d, rfl | .wrregR11 d, rfl | .wrregR12 d, rfl
  | .wrregR13 d, rfl | .wrregR14 d, rfl | .wrregR15 d, rfl =>
    silent_latchedWrite hs (ne_ampIndex_of_ne (by decide)) d
  | .wrregR8 d, _ => absurd rfl (hwrreg d).1
  | .wrregR9 d, _ => absurd rfl (hwrreg d).2.1
  | .wrregR10 d, _ => absurd rfl (hwrreg d).2.2
  | .wrregOor128 a d, rfl | .wrregOor64 a d, rfl | .wrregOor32 a d, rfl
  | .wrregOor16 a d, rfl =>
    silent_latchedWrite hs (ne_ampIndex_of_ge (by
      simp only [Instr.wf, Bool.and_eq_true, decide_eq_true_eq] at hwf
      omega)) d
  | .clock, rfl => silent_clockSample hcfg hs
  | .getsample, rfl => silent_handBack hs (.sample s.sample)
  | .dumpregs, rfl => silent_handBack hs (.frame s.regs)
  | .loadregs v0 v1 v2 v3, rfl =>
    silent_loadFrame hs fun ch => by
      obtain ⟨ha, hb, hc⟩ := hload v0 v1 v2 v3 rfl
      cases ch with
      | a => exact ha
      | b => exact hb
      | c => exact hc
  | .setfilter _, rfl => { hs with }
  | .toneresetA, rfl => silent_requestToneReset hs .a
  | .toneresetB, rfl => silent_requestToneReset hs .b
  | .toneresetC, rfl => silent_requestToneReset hs .c
  | .envtrig, rfl => { hs with }
  | .setovrA l, _ => absurd rfl (hsetovr l).1
  | .setovrB l, _ => absurd rfl (hsetovr l).2.1
  | .setovrC l, _ => absurd rfl (hsetovr l).2.2
  | .clrovrA, rfl => silent_clearOverride hs .a
  | .clrovrB, rfl => silent_clearOverride hs .b
  | .clrovrC, rfl => silent_clearOverride hs .c
  | .reset, rfl => silent_resetWith _ (by simpa using hs.lvl_zero)

end Sys2Proof.Machine
end

section
/-!
PROOFS. Every operation completes (spec/60_exceptions.md R300), and of spec/70_reset_and_hazards.md: the
configuration is never changed (R332), the invariant of every reachable state (R336), and the gate of
a tone faster than the sample (R346).
-/

namespace Sys2Proof.Machine

/-! ## Completion and frame -/

/-- Settles O8: no arm of `exec` faults or refuses. -/
theorem everyOperationCompletes : Obligations.EveryOperationCompletes := exec_completes

/-- A host update leaves the configuration and the queue alone. -/
theorem hostUpdate_cfg_pending {s t : State} (h : HostUpdate s t) :
    t.cfg = s.cfg ∧ t.pending = s.pending := by
  cases h with
  | keep | latch | handBack | filter | toneReset | envRestart | override => exact ⟨rfl, rfl⟩
  | write | latchedWrite | load | read | latchedRead => exact ⟨by simp, by simp⟩

theorem exec_cfg_pending {i : Instr} {s t : State} (h : exec i s = .next t) :
    t.cfg = s.cfg ∧ t.pending = s.pending := by
  by_cases hclock : i = .clock
  · subst hclock
    obtain rfl : clockSample s = t := Host.Outcome.next.inj h
    exact ⟨by simp, by simp⟩
  · by_cases hreset : i = .reset
    · subst hreset
      obtain rfl := Host.Outcome.next.inj ((exec_reset_eq s).symm.trans h)
      exact ⟨rfl, rfl⟩
    · exact hostUpdate_cfg_pending (hostUpdate_of_exec hclock hreset h)

/-- Settles O9: a step takes words off the queue and performs one operation, which keeps both. -/
theorem configurationIsNeverChanged : Obligations.ConfigurationIsNeverChanged := by
  refine ⟨fun s t h => ?_, fun i s t => exec_cfg_pending⟩
  obtain ⟨-, rfl⟩ | ⟨i, rest, -, hexec⟩ := step_cases h
  · rfl
  · exact (exec_cfg_pending hexec).1

/-! ## The invariant of every reachable state (R336) -/

/-- Settles O12, by induction on how the host came to the state: construction establishes the
invariant, the host port is not in it, and every step keeps it. -/
theorem invariantHoldsInEveryReachableState :
    Obligations.InvariantHoldsInEveryReachableState := by
  intro s h
  induction h with
  | @construct cfg d s h =>
    unfold construct at h
    split at h
    case isTrue hwf =>
      obtain rfl := Host.Outcome.next.inj h
      exact inv_initial hwf d
    case isFalse => cases h
  | issue _ _ ih => exact { ih with }
  | fixReset _ _ ih => exact { ih with }
  | fixRead _ _ ih => exact { ih with }
  | step _ h ih => exact invariantKeptByEveryStep _ _ ih h

/-! ## A tone faster than the sample (R346) -/

/-- A tone with at most `k` more ticks to count before the one that toggles it has toggled once
within `k + 1` ticks, whatever its counter holds. -/
theorem exists_tick_te_toggled {s : State} {ch : Channel} {k : Nat}
    (h : (s.tp ch).toNat ≤ s.tc.get ch + k + 1) :
    ∃ j ≤ k, fieldOf (tick^[j + 1] s).te ch = fieldOf s.te ch ^^^ 0x1F := by
  induction k generalizing s with
  | zero => exact ⟨0, le_rfl, (tick_tone_of_reached h).2⟩
  | succ k ih =>
    obtain hreach | hshort := le_or_gt (s.tp ch).toNat (s.tc.get ch + 1)
    · exact ⟨0, Nat.zero_le _, (tick_tone_of_reached hreach).2⟩
    · obtain ⟨htc, hte⟩ := tick_tone_of_short hshort
      have htp : (tick s).tp ch = s.tp ch := tick_iterate_tp 1 s ch
      obtain ⟨j, hj, htoggle⟩ := ih (s := tick s) (by rw [htp, htc]; omega)
      exact ⟨j + 1, Nat.succ_le_succ hj, by rw [Function.iterate_succ_apply, htoggle, hte]⟩

/-- A tone whose period is shorter than the run is high on one of its ticks. Where it starts low its
first toggle makes it high; where it starts high it is still high after the first tick, or that tick
toggles it and the next toggle is due in time. -/
theorem exists_tick_te_high {s : State} {ch : Channel} {n : Nat}
    (hte : fieldOf s.te ch = 0x00 ∨ fieldOf s.te ch = 0x1F) (hn : max (s.tp ch).toNat 1 < n) :
    ∃ j < n, fieldOf (tick^[j + 1] s).te ch = 0x1F := by
  obtain hlow | hhigh := hte
  · obtain ⟨j, hj, htoggle⟩ := exists_tick_te_toggled (s := s) (ch := ch) (k := n - 1) (by omega)
    exact ⟨j, by omega, by rw [htoggle, hlow]; rfl⟩
  · obtain hreach | hshort := le_or_gt (s.tp ch).toNat (s.tc.get ch + 1)
    · obtain ⟨-, hlow⟩ := tick_tone_of_reached hreach
      have htp : (tick s).tp ch = s.tp ch := tick_iterate_tp 1 s ch
      obtain ⟨j, hj, htoggle⟩ :=
        exists_tick_te_toggled (s := tick s) (ch := ch) (k := n - 2) (by rw [htp]; omega)
      exact ⟨j + 1, by omega, by rw [Function.iterate_succ_apply, htoggle, hlow, hhigh]; rfl⟩
    · obtain ⟨-, hstays⟩ := tick_tone_of_short hshort
      exact ⟨0, by omega, hstays.trans hhigh⟩

/-- Where the noise side is disabled, a high tone opens the gate of its channel (R180). -/
theorem fieldOf_gateMask_of_te_high {s : State} {ch : Channel} (hnoise : s.noiseOff ch = true)
    (hte : fieldOf s.te ch = 0x1F) : fieldOf s.gateMask ch = 0x1F := by
  have htone : fieldOf (s.te ||| s.tem) ch = 0x1F := by
    rw [fieldOf_or, hte]
    exact BitVec.allOnes_or
  have hopen : fieldOf (s.nm ||| s.nem) ch = 0x1F := by
    rw [fieldOf_or, fieldOf_nem, if_pos hnoise]
    exact BitVec.or_allOnes
  rw [State.gateMask, fieldOf_and, htone, hopen]
  rfl

/-- A gate that one tick opens stays open to the end of the run (R181). -/
theorem fieldOf_gate_of_gateMask {s : State} {ch : Channel} {j n : Nat} (hj : j < n)
    (h : fieldOf (tick^[j + 1] s).gateMask ch = 0x1F) : fieldOf (tick^[n] s).gate ch = 0x1F := by
  induction n, hj using Nat.le_induction with
  | base =>
    rw [fieldOf_gate_tick_succ, h]
    exact BitVec.or_allOnes
  | succ n _ ih =>
    rw [fieldOf_gate_tick_succ, ih]
    exact BitVec.allOnes_or

/-- Settles O59: the tone is high on one of the ticks, which opens the gate. -/
theorem fastToneAlwaysOpensItsGate : Obligations.FastToneAlwaysOpensItsGate := by
  intro s ch n hte hnoise hn
  obtain ⟨j, hj, hhigh⟩ := exists_tick_te_high hte hn
  have hoff : (tick^[j + 1] s).noiseOff ch = true := by
    rw [State.noiseOff_congr (tick_iterate_regs _ _), noiseOff_eq_getLsbD]
    exact hnoise
  exact fieldOf_gate_of_gateMask hj (fieldOf_gateMask_of_te_high hoff hhigh)

end Sys2Proof.Machine
end
